-- ==== Sys2Proof/Word.lean ====
section
/-! DEFINITION. The words of the MD-15: the widths of the fields that frames, commands and records carry (R3, R17,
section 12.1), and the groups of fields that travel together. -/

namespace Sys2Proof

/-- One byte of a local port transaction (R174). -/
abbrev Byte := BitVec 8

/-- A station number as a frame field holds it: 0 to 14, and 15 where no station drove it or the straps are invalid
(section 0.5). -/
abbrev StationNumber := BitVec 4

/-- A set of station numbers 0 to 14: bit n is set where station n is a member (R17, R194). -/
abbrev StationSet := BitVec 15

/-- A data address (R4). -/
abbrev Address := BitVec 32

/-- A ticket's tag, 0 to 255 (R2). -/
abbrev Tag := BitVec 8

/-- A ticket's generation, 0 to 3 (R2). -/
abbrev Generation := BitVec 2

/-- A ticket's class, 0 to 31 (R7). -/
abbrev TicketClass := BitVec 5

/-- A ticket's level, 0 to 7; 0 is the most urgent (R6). -/
abbrev Level := BitVec 3

/-- An outcome code, 0 to 3 (R5). -/
abbrev OutcomeCode := BitVec 2

/-- A number of one of the request lines SRC0 to SRC7, or of its source entry (R63). -/
abbrev Line := Fin 8

/-- The fields of an OFFER frame up to its check (R3, R22, section 12.1). -/
structure OfferFields where
  sender : StationNumber
  level : Level
  tag : Tag
  generation : Generation
  cls : TicketClass
  dest : StationSet
  addr : Option Address
  deriving DecidableEq, Repr

/-- Which of the two notices a frame is (section 2.3). -/
inductive NoticeWord where
  | done
  | ret
  deriving DecidableEq, Repr

/-- The fields of a DONE or RETURN frame up to its check (R22, section 12.1). -/
structure NoticeFields where
  word : NoticeWord
  sender : StationNumber
  target : StationNumber
  tag : Tag
  generation : Generation
  cls : TicketClass
  outcome : OutcomeCode
  deriving DecidableEq, Repr

/-- The fate of the station's own OFFER (R38); a clean one with its bid and claimant fields as read (R31). -/
inductive OfferFate where
  | lost
  | broken
  | void
  | clean (bid : BitVec 6) (claimant : StationNumber)
  deriving DecidableEq, Repr

/-- The fate of the station's own DONE or RETURN (R38); a clean one with its heard and stale slots as read, `true`
for dominant (R34). -/
inductive NoticeFate where
  | lost
  | broken
  | void
  | clean (heard stale : Bool)
  deriving DecidableEq, Repr

/-- The fate of the station's own JOIN (R38); a clean one with its presence set and its clash slot as read, `true` for
dominant (R36). -/
inductive JoinFate where
  | lost
  | broken
  | void
  | clean (presence : StationSet) (clash : Bool)
  deriving DecidableEq, Repr

/-- The fate of the station's own LEAVE (R38). -/
inductive LeaveFate where
  | lost
  | broken
  | void
  | clean
  deriving DecidableEq, Repr

end Sys2Proof
end

