-- ==== Sys2Proof/Syntax.lean ====
section
/-! DEFINITION. The commands of the block: one constructor for each row of spec/opcode_table.json, in the table's order,
with the row's operands as its rule gives them. A flag read on a slot is `true` for dominant. -/

namespace Sys2Proof

/-- One command or event: a whole, indivisible step of the part (95_what_each_step_holds.md, R178). -/
inductive Instr where
  /-- RESET_ASSERT (R44). -/
  | resetAssert
  /-- RESET_RELEASE (R44): the straps SN3..SN0 as sampled. -/
  | resetRelease (straps : StationNumber)
  /-- CONFIG_WRITE (R179, R195): group byte, field byte, five value bytes. -/
  | configWrite (group field : Byte) (value : BitVec 40)
  /-- CONFIG_READ (R180). -/
  | configRead (group field : Byte)
  /-- JOIN (R47, R48). -/
  | join
  /-- DRAIN (R55). -/
  | drain
  /-- RESTART (R61). -/
  | restart
  /-- SUBMIT (R82, R194): class, level and presence flag bytes, set, address. -/
  | submit (cls level flag : Byte) (set : BitVec 16) (addr : Address)
  /-- CANCEL (R95). -/
  | cancel (tag : Tag)
  /-- QUERY (R184). -/
  | query (tag : Tag)
  /-- TAKE (R145, R146). -/
  | take
  /-- FINISH (R148): slot and outcome code bytes. -/
  | finish (slot outcome : Byte)
  /-- HAND_BACK (R149): slot byte. -/
  | handBack (slot : Byte)
  /-- REPORT (R168). -/
  | report
  /-- STATUS (R188). -/
  | status
  /-- MASK (R73, R190): entry byte; value byte, 0 clear, 1 set. -/
  | mask (entry value : Byte)
  /-- TOUCH (R137). -/
  | touch (addr : Address)
  /-- FORGET (R138). -/
  | forget
  /-- ROSTER (R189). -/
  | roster
  /-- UNKNOWN_COMMAND_BYTE (R177). -/
  | unknownCommandByte (byte : Byte)
  /-- TRANSACTION_DISCARDED (R175). -/
  | transactionDiscarded
  /-- LINE_BECOMES_ACTIVE (R65, R68, R69). -/
  | lineBecomesActive (line : Line)
  /-- LINE_BECOMES_INACTIVE (R65, R69). -/
  | lineBecomesInactive (line : Line)
  /-- DEADLINE_TICK (R84). -/
  | deadlineTick
  /-- BACKOFF_EXPIRY (R87): the tag of the record. -/
  | backoffExpiry (tag : Tag)
  /-- DEADLINE_EXPIRY (R107): the tag of the record. -/
  | deadlineExpiry (tag : Tag)
  /-- DRAIN_LIMIT_EXPIRY (R58, R112). -/
  | drainLimitExpiry
  /-- SYNCHRONISATION_QUIET (R19). -/
  | synchronisationQuiet
  /-- UNREADABLE_KIND (R21): the kind read. -/
  | unreadableKind (kind : BitVec 3)
  /-- FRAME_START (R39, R40). -/
  | frameStart
  /-- OFFER_VALIDATED (R120): the offer as read. -/
  | offerValidated (offer : OfferFields)
  /-- CLAIM_AS_READ (R32): the bid field, the claimant field and the confirm bit as read. -/
  | claimAsRead (bid : BitVec 6) (claimant : StationNumber) (confirm : Bool)
  /-- NOTICE_RECEIVED (R101): the notice as read. -/
  | noticeReceived (notice : NoticeFields)
  /-- NOTICE_SENDER_LEARNED (R26). -/
  | noticeSenderLearned (sender : StationNumber)
  /-- JOIN_ANSWER (R35). -/
  | joinAnswer (sender : StationNumber)
  /-- JOIN_RECEIVED (R52): sender, resumed flag, clash slot as read. -/
  | joinReceived (sender : StationNumber) (resumed clash : Bool)
  /-- LEAVE_RECEIVED (R57). -/
  | leaveReceived (sender : StationNumber)
  /-- OFFER_FRAME_END (R89). -/
  | offerFrameEnd (fate : OfferFate)
  /-- NOTICE_FRAME_FATE (R34, R153 to R156). -/
  | noticeFrameFate (fate : NoticeFate)
  /-- JOIN_FRAME_END (R50, R51). -/
  | joinFrameEnd (fate : JoinFate)
  /-- LEAVE_FRAME_END (R57). -/
  | leaveFrameEnd (fate : LeaveFate)
  /-- CHECK_FOUND_BAD (R24). -/
  | checkFoundBad
  deriving DecidableEq, Repr

end Sys2Proof
end

