-- ==== Sys2Proof/Decode.lean ====
section
/-! DEFINITION. Decoding. No row of spec/opcode_table.json gives bits, so `decodeTableWord` spells no command. What the part
does decode are the bytes of local port transactions (R174, R177, R194, section 12.2): `paramCount` and `decodePort` read
them, and `portBytes` writes them. -/

namespace Sys2Proof

/-- The command that a word spells by the opcode table's bits: the table gives no row any bits. -/
def decodeTableWord (_nbits _w : Nat) : Option Instr := none

/-! ### Local port bytes -/

/-- A number sent most significant byte first (R194). -/
def ofBytes (bytes : List Byte) : Nat :=
  bytes.foldl (fun acc b => acc * 256 + b.toNat) 0

/-- `n` bytes of a number, most significant first (R194). -/
def toBytes (n value : Nat) : List Byte :=
  (List.range n).reverse.map fun i => BitVec.ofNat 8 (value / 256 ^ i)

/-- Parameter bytes of each command byte (section 12.2); none for a byte that names no command (R177). -/
def paramCount (command : Byte) : Option Nat :=
  match command.toNat with
  | 1 => some 7
  | 2 => some 2
  | 3 => some 0
  | 4 => some 0
  | 5 => some 0
  | 6 => some 9
  | 7 => some 1
  | 8 => some 1
  | 9 => some 0
  | 10 => some 2
  | 11 => some 1
  | 12 => some 0
  | 13 => some 0
  | 14 => some 2
  | 15 => some 4
  | 16 => some 0
  | 17 => some 0
  | _ => none

/-- The command whose bytes have all been received (R174, R194, R195, section 12.2), or the unknown command byte (R177);
none while bytes are missing. -/
def decodePort : List Byte → Option Instr
  | [] => none
  | command :: params =>
    match command.toNat, params with
    | 1, [g, f, v1, v2, v3, v4, v5] => some (.configWrite g f (BitVec.ofNat 40 (ofBytes [v1, v2, v3, v4, v5])))
    | 1, _ => none
    | 2, [g, f] => some (.configRead g f)
    | 2, _ => none
    | 3, [] => some .join
    | 3, _ => none
    | 4, [] => some .drain
    | 4, _ => none
    | 5, [] => some .restart
    | 5, _ => none
    | 6, [c, l, p, s1, s2, a1, a2, a3, a4] =>
      some (.submit c l p (BitVec.ofNat 16 (ofBytes [s1, s2])) (BitVec.ofNat 32 (ofBytes [a1, a2, a3, a4])))
    | 6, _ => none
    | 7, [t] => some (.cancel t)
    | 7, _ => none
    | 8, [t] => some (.query t)
    | 8, _ => none
    | 9, [] => some .take
    | 9, _ => none
    | 10, [s, o] => some (.finish s o)
    | 10, _ => none
    | 11, [s] => some (.handBack s)
    | 11, _ => none
    | 12, [] => some .report
    | 12, _ => none
    | 13, [] => some .status
    | 13, _ => none
    | 14, [e, v] => some (.mask e v)
    | 14, _ => none
    | 15, [a1, a2, a3, a4] => some (.touch (BitVec.ofNat 32 (ofBytes [a1, a2, a3, a4])))
    | 15, _ => none
    | 16, [] => some .forget
    | 16, _ => none
    | 17, [] => some .roster
    | 17, _ => none
    | _, [] => some (.unknownCommandByte command)
    | _, _ :: _ => none

/-- The command and parameter bytes the processor clocks in for a command (section 12.2); none for an event that is no
port command. -/
def portBytes : Instr → Option (List Byte)
  | .configWrite g f v => some ([1, g, f] ++ toBytes 5 v.toNat)
  | .configRead g f => some [2, g, f]
  | .join => some [3]
  | .drain => some [4]
  | .restart => some [5]
  | .submit c l p set a => some ([6, c, l, p] ++ toBytes 2 set.toNat ++ toBytes 4 a.toNat)
  | .cancel t => some [7, t]
  | .query t => some [8, t]
  | .take => some [9]
  | .finish s o => some [10, s, o]
  | .handBack s => some [11, s]
  | .report => some [12]
  | .status => some [13]
  | .mask e v => some [14, e, v]
  | .touch a => some ([15] ++ toBytes 4 a.toNat)
  | .forget => some [16]
  | .roster => some [17]
  | .unknownCommandByte b => some [b]
  | .resetAssert => none
  | .resetRelease _ => none
  | .transactionDiscarded => none
  | .lineBecomesActive _ => none
  | .lineBecomesInactive _ => none
  | .deadlineTick => none
  | .backoffExpiry _ => none
  | .deadlineExpiry _ => none
  | .drainLimitExpiry => none
  | .synchronisationQuiet => none
  | .unreadableKind _ => none
  | .frameStart => none
  | .offerValidated _ => none
  | .claimAsRead _ _ _ => none
  | .noticeReceived _ => none
  | .noticeSenderLearned _ => none
  | .joinAnswer _ => none
  | .joinReceived _ _ _ => none
  | .leaveReceived _ => none
  | .offerFrameEnd _ => none
  | .noticeFrameFate _ => none
  | .joinFrameEnd _ => none
  | .leaveFrameEnd _ => none
  | .checkFoundBad => none

end Sys2Proof
end

