-- ==== Sys2Proof/Config.lean ====
section
/-! DEFINITION. What the part fixes for good: the sizes and limits of section 0.7, and the one value the manual leaves
free. -/

namespace Sys2Proof.Config

/-- Records of the outbound list (R77). -/
def maxOutbound : Nat := 32

/-- Records of the inbound queue (R141). -/
def maxInbound : Nat := 24

/-- Records of the report queue (R162). -/
def maxReports : Nat := 16

/-- Entries of the affinity table (R134). -/
def maxAffinity : Nat := 16

/-- Clean unheard frames of one notice before its copy ends UNDELIVERED (R155). -/
def noticeAttemptLimit : Nat := 8

/-- Consecutive recessive bit periods of the bus idle (R20). -/
def busIdle : Nat := 8

/-- Consecutive recessive bit periods of the synchronisation quiet (R19). -/
def quiet : Nat := 110

/-- Step up of the transmit error count for a broken or void own frame (R41). -/
def errorStep : Nat := 8

/-- The transmit error count at which a station is MUTED (R41). -/
def muteAt : Nat := 32

/-- Bit periods of one deadline tick for T = 1 (R84). -/
def tickBits : Nat := 1024

/-- The upgrade bid (R126). -/
def upgradeBid : Nat := 0

/-- FREE VALUE: the level SDO shows while SCS# is low and the response has not begun; the n-th such level. R174 says what SDO
shows from the response on and while SCS# is high, and nothing in between (log 15). -/
opaque sdoBeforeResponse : Nat → Bool

end Sys2Proof.Config
end

