-- ==== Sys2Proof/Machine/State.lean ====
section
/-! DEFINITION. The state of one MD-15, block by block as section 0.2 lists the blocks, and its value after reset. A field
that a record holds only in some of its states is an argument of that state's constructor (R78, R141, R144). -/

namespace Sys2Proof.Machine

/-! ### Configuration record (R8, R46, R63)

Numbers are held as `Nat`, so that a fault of the record's storage can leave one outside its range and the check of R47
can find it (log 23). -/

/-- One class entry (R8). -/
structure ClassEntry where
  accept : Bool
  deadline : Nat
  retry : Nat
  attemptLimit : Nat
  reofferLimit : Nat
  affinityUse : Bool
  report : Bool
  deriving DecidableEq, Repr

/-- The reset values of R8. -/
def ClassEntry.reset : ClassEntry :=
  { accept := false, deadline := 0, retry := 1, attemptLimit := 1, reofferLimit := 0, affinityUse := false,
    report := true }

inductive Trigger where
  | edge
  | level
  deriving DecidableEq, Repr

inductive Polarity where
  | high
  | low
  deriving DecidableEq, Repr

/-- The configured fields of one source entry (R63). -/
structure SourceConfig where
  trigger : Trigger
  polarity : Polarity
  cls : Nat
  level : Nat
  dest : StationSet
  addr : Option Address
  startMasked : Bool
  deriving DecidableEq, Repr

/-- The reset values of R63. -/
def SourceConfig.reset : SourceConfig :=
  { trigger := .edge, polarity := .high, cls := 0, level := 7, dest := 0, addr := none, startMasked := true }

/-- The station items (R46). -/
structure StationItems where
  tickFactor : Nat
  blockExponent : Nat
  affinityWeight : Nat
  drainLimit : Nat
  attentionThreshold : Nat
  enableInbound : Bool
  enableReport : Bool
  enableStateChange : Bool
  deriving DecidableEq, Repr

/-- The reset values of R46. -/
def StationItems.reset : StationItems :=
  { tickFactor := 1, blockExponent := 12, affinityWeight := 4, drainLimit := 0, attentionThreshold := 1,
    enableInbound := false, enableReport := false, enableStateChange := false }

/-- The configuration record (R46). -/
structure Configuration where
  classes : Vector ClassEntry 32
  sources : Vector SourceConfig 8
  station : StationItems
  deriving DecidableEq, Repr

def Configuration.reset : Configuration :=
  { classes := Vector.replicate 32 ClassEntry.reset, sources := Vector.replicate 8 SourceConfig.reset,
    station := StationItems.reset }

/-! ### Offer unit (chapter 5) -/

/-- Where a ticket was raised: a request line, or SUBMIT (R1). -/
inductive Source where
  | line (l : Line)
  | soft
  deriving DecidableEq, Repr

/-- The end of a ticket at its originator, with the values each kind carries (R93, R164). -/
inductive Resolution where
  | completed (outcome : OutcomeCode) (claimant : StationNumber)
  | refused (attempts : Nat)
  | lapsed (attempts : Nat)
  | cancelled
  | noPeer
  | withdrawn
  deriving DecidableEq, Repr

/-- The five record states with the fields present in each (R78, R79). A timer value of 0 is a timer that has reached 0
and whose expiry is due (R85, log 4). -/
inductive RecordState where
  | waiting
  | backoff (timer : Nat)
  | offering (cancelRequested : Bool)
  | outstanding (claimant : StationNumber) (timer : Option Nat)
  | resolved (resolution : Resolution) (number : Nat)
  deriving DecidableEq, Repr

/-- An outbound record (R78). -/
structure OutRecord where
  tag : Tag
  generation : Generation
  source : Source
  cls : TicketClass
  level : Level
  dest : StationSet
  addr : Option Address
  attempts : Nat
  state : RecordState
  deriving DecidableEq, Repr

structure OfferUnit where
  /-- in creation order (R77) -/
  records : List OutRecord
  tagCounter : Tag
  tickCount : Nat
  deriving DecidableEq, Repr

/-! ### Source unit (chapter 4) -/

/-- The entry states of R64; the live tag and the latched edge are held only while LIVE. -/
inductive EntryState where
  | quiet
  | latched
  | live (tag : Tag) (edgeLatched : Bool)
  deriving DecidableEq, Repr

/-- The run-time state of one source entry (R64, R65). -/
structure SourceEntry where
  state : EntryState
  masked : Bool
  hold : Bool
  takenHigh : Bool
  /-- the sample of the last bit period read opposite to the taken level (R65, log 16) -/
  oppositeSeen : Bool
  deriving DecidableEq, Repr

/-- The reset values of R64. -/
def SourceEntry.reset : SourceEntry :=
  { state := .quiet, masked := true, hold := false, takenHigh := false, oppositeSeen := false }

/-! ### Claim unit (chapter 7) -/

/-- The offer in hand (R119, R128): the OFFER being decided, the bid given (none where ineligible), whether that bid is
an upgrade, and whether the station is still in the claim. -/
structure OfferInHand where
  offer : OfferFields
  bid : Option (BitVec 6)
  upgrade : Bool
  inClaim : Bool
  deriving DecidableEq, Repr

structure ClaimUnit where
  /-- block numbers, most recently used first (R134) -/
  affinity : List Nat
  claimCounter : Nat
  offerInHand : Option OfferInHand
  deriving DecidableEq, Repr

/-! ### Work unit (chapter 8) -/

/-- How a copy ends with a report (R158). -/
inductive CopyEnd where
  | stale
  | undelivered
  deriving DecidableEq, Repr

/-- A claimant-side resolution with its number in the resolution order (R158). -/
structure CopyResolution where
  how : CopyEnd
  number : Nat
  deriving DecidableEq, Repr

/-- The two states of an inbound record (R141). -/
inductive InboundState where
  | waiting
  | returning (age attempts : Nat) (resolution : Option CopyResolution)
  deriving DecidableEq, Repr

/-- An inbound record (R141), with the destination set, which R3 has a commit copy as well. -/
structure InRecord where
  originator : StationNumber
  tag : Tag
  generation : Generation
  cls : TicketClass
  level : Level
  dest : StationSet
  addr : Option Address
  claimSequence : Nat
  state : InboundState
  deriving DecidableEq, Repr

/-- The notice kind of an entry, with the outcome code a FINISH gave it (R144, R148, R149). -/
inductive NoticeKind where
  | done (outcome : OutcomeCode)
  | ret
  deriving DecidableEq, Repr

/-- The two states of an in-service entry (R144). -/
inductive ServiceState where
  | taken
  | notifying (kind : NoticeKind) (age attempts : Nat) (resolution : Option CopyResolution)
  deriving DecidableEq, Repr

/-- An in-service entry (R144); its slot is its place in the list. -/
structure ServiceEntry where
  originator : StationNumber
  tag : Tag
  generation : Generation
  cls : TicketClass
  state : ServiceState
  deriving DecidableEq, Repr

structure WorkUnit where
  /-- in queue order (R142) -/
  inbound : List InRecord
  slots : Vector (Option ServiceEntry) 8
  noticeCounter : Nat
  deriving DecidableEq, Repr

/-- A copy the station holds as claimant: a slot, or an inbound record by its (originator, tag) (R143). -/
inductive CopyRef where
  | slot (i : Fin 8)
  | inbound (originator : StationNumber) (tag : Tag)
  deriving DecidableEq, Repr

/-! ### Report unit (chapter 9) -/

/-- The eight report kinds (R164), in the order of their codes (R194). -/
inductive ReportKind where
  | completed
  | refused
  | lapsed
  | cancelled
  | noPeer
  | withdrawn
  | stale
  | undelivered
  deriving DecidableEq, Repr

/-- A report record (R164). -/
structure Report where
  kind : ReportKind
  tag : Tag
  cls : TicketClass
  source : Option Source
  generation : Generation
  peer : Option StationNumber
  outcome : Option OutcomeCode
  attempts : Option Nat
  deriving DecidableEq, Repr

structure ReportUnit where
  /-- oldest first (R162) -/
  queue : List Report
  resolutionCounter : Nat
  deriving DecidableEq, Repr

/-! ### Bus unit (chapter 2) -/

/-- What a frame is built from, fixed when it starts (R22). -/
inductive Frame where
  | offer (fields : OfferFields)
  | notice (fields : NoticeFields)
  | join (sender : StationNumber) (resumed : Bool)
  | leave (sender : StationNumber)
  deriving DecidableEq, Repr

/-- The candidate a frame of the station's own was started for (R39). -/
inductive Candidate where
  | join
  | leave
  | notice (copy : CopyRef)
  | offer (tag : Tag)
  deriving DecidableEq, Repr

/-- How far the station's own frame has fared (R23, R25, R27). -/
inductive OwnStatus where
  | transmitting
  | lost
  | broken
  | voided
  deriving DecidableEq, Repr

/-- The frame in flight, when it is the station's own (section 2.2). -/
structure OwnFrame where
  candidate : Candidate
  frame : Frame
  status : OwnStatus
  deriving DecidableEq, Repr

/-- What the station drives in the answer slots of a peer's frame (R24, R33, R35, R37). -/
inductive Answer where
  | none
  | void
  | notice (heard stale : Bool)
  | join (presence clash : Bool)
  | acknowledge
  deriving DecidableEq, Repr

structure BusUnit where
  synchronised : Bool
  /-- `none` between frames; inside a frame, the bits read since the opening bit (`true` for recessive) -/
  position : Option (List Bool)
  recessiveRun : Nat
  ownFrame : Option OwnFrame
  errorCount : Nat
  answer : Answer
  deriving DecidableEq, Repr

/-! ### Station control (chapter 3) -/

/-- The seven station states, FAULT with its cause (R43). -/
inductive StationState where
  | unconfigured
  | joining
  | online
  | draining
  | offline
  | muted
  | faultNumber
  | faultClash
  deriving DecidableEq, Repr

structure StationControl where
  state : StationState
  number : StationNumber
  config : Configuration
  locked : Bool
  roster : StationSet
  /-- absent, or present with its resumed flag -/
  joinCandidate : Option Bool
  /-- in MUTED, the resumed flag of the JOIN that ends the spell (R59) -/
  mutedResumed : Bool
  leaveCandidate : Bool
  drainTimer : Option Nat
  drainPassed : Bool
  stateChanged : Bool
  deriving DecidableEq, Repr

/-! ### Local port (chapter 10) -/

/-- The command transaction in progress (R174, R175). -/
structure LocalPort where
  scsLow : Bool
  active : Bool
  bits : List Bool
  bytes : List Byte
  taken : Bool
  response : List Byte
  shifted : Nat
  deriving DecidableEq, Repr

def LocalPort.reset : LocalPort :=
  { scsLow := false, active := false, bits := [], bytes := [], taken := false, response := [], shifted := 0 }

/-- Activity at the station's pins that is not yet a command: one bit period of DBC with the levels sampled on DBD and on
SRC0 to SRC7 (`true` for recessive and for high), or an edge of SCS#, or a rising edge of SCK with the level of SDI
(R16, R65, R174; log 1). -/
inductive PinInput where
  | bitPeriod (dbd : Bool) (src : BitVec 8)
  | scsFall
  | scsRise
  | sck (sdi : Bool)
  deriving DecidableEq, Repr

/-- The machine. -/
structure State where
  bus : BusUnit
  control : StationControl
  sources : Vector SourceEntry 8
  offer : OfferUnit
  claim : ClaimUnit
  work : WorkUnit
  reports : ReportUnit
  port : LocalPort
  /-- RESET# is low (R44) -/
  held : Bool
  /-- commands waiting, first in first out -/
  pending : List Instr
  /-- pin activity not yet taken (log 1) -/
  inputs : List PinInput
  /-- free values drawn so far: the model's own (log 15) -/
  freeDrawn : Nat
  deriving DecidableEq, Repr

/-- No rule of the spec stops the part: a command that is refused is answered by a response code (R176), and FAULT is a
station state (R44, R51). No meaning raises a fault, so there is none to name. -/
inductive Fault where
  deriving DecidableEq, Repr

inductive Refusal where
  /-- Raised by an arm of `exec` whose command has no meaning yet; safe. No arm does. -/
  | notModelled (mnemonic : String)
  deriving DecidableEq, Repr

/-- The bus unit after power-on reset or RESET# (section 2.2). -/
def BusUnit.reset : BusUnit :=
  { synchronised := false, position := none, recessiveRun := 0, ownFrame := none, errorCount := 0, answer := .none }

/-- Station control after reset (R43, R44): straps 15 start in FAULT(NUMBER), every other value in UNCONFIGURED. -/
def StationControl.reset (straps : StationNumber) : StationControl :=
  { state := if straps = 15 then .faultNumber else .unconfigured, number := straps, config := Configuration.reset,
    locked := false, roster := 0, joinCandidate := none, mutedResumed := false, leaveCandidate := false,
    drainTimer := none, drainPassed := false, stateChanged := false }

/-- Every item at its value after power-on reset or RESET# with the straps given (R18, R43, R44, R64, R77, R80, R84, R119,
R140, R162). -/
def State.afterReset (straps : StationNumber) : State :=
  { bus := BusUnit.reset
    control := StationControl.reset straps
    sources := Vector.replicate 8 SourceEntry.reset
    offer := { records := [], tagCounter := 0, tickCount := 0 }
    claim := { affinity := [], claimCounter := 0, offerInHand := none }
    work := { inbound := [], slots := Vector.replicate 8 none, noticeCounter := 0 }
    reports := { queue := [], resolutionCounter := 0 }
    port := LocalPort.reset
    held := false
    pending := []
    inputs := []
    freeDrawn := 0 }

/-- The machine right after reset, on a board whose straps read 0 (DESIGN CHOICE, log 2: the straps are the board's). -/
def State.reset : State := State.afterReset 0

end Sys2Proof.Machine
end

