-- ==== Sys2Proof/Machine/Operands.lean ====
section
/-! DEFINITION. The forms operands take: sets of station numbers (R17), configuration items with their identifiers, ranges
and byte forms (R179, R180, R195), block numbers (R134), and the codes of results (R194). -/

namespace Sys2Proof.Machine

/-! ### Sets of station numbers -/

/-- The set holding one station number; 15 is no member of any set (R17). -/
def setOf (n : StationNumber) : StationSet := 1#15 <<< n.toNat

def setHas (set : StationSet) (n : StationNumber) : Bool := set.getLsbD n.toNat

def setAdd (set : StationSet) (n : StationNumber) : StationSet := set ||| setOf n

def setRemove (set : StationSet) (n : StationNumber) : StationSet := set &&& ~~~(setOf n)

/-- The two sets have a station number in common (R83). -/
def setsMeet (a b : StationSet) : Bool := a &&& b != 0#15

/-! ### Flags and absence in bytes (R194) -/

def flagByte (b : Bool) : Byte := if b then 1 else 0

/-- An absent one-byte field reads 255 (R194). -/
def orAbsent (b : Option Byte) : Byte := b.getD 255

/-- A number of one byte. -/
def numByte (n : Nat) : Byte := BitVec.ofNat 8 n

/-- A presence flag and four address bytes, 0 where the address is absent (R180, R185). -/
def addrBytes (a : Option Address) : List Byte :=
  match a with
  | some x => 1 :: toBytes 4 x.toNat
  | none => [0, 0, 0, 0, 0]

/-! ### Configuration items (R195) -/

inductive ClassField where
  | accept
  | deadline
  | retry
  | attemptLimit
  | reofferLimit
  | affinityUse
  | report
  deriving DecidableEq, Repr

inductive SourceField where
  | trigger
  | polarity
  | cls
  | level
  | dest
  | addr
  | startMasked
  deriving DecidableEq, Repr

inductive StationField where
  | tickFactor
  | blockExponent
  | affinityWeight
  | drainLimit
  | attentionThreshold
  | enableInbound
  | enableReport
  | enableStateChange
  deriving DecidableEq, Repr

/-- One item of the configuration record (R46). -/
inductive ConfigItem where
  | cls (n : TicketClass) (f : ClassField)
  | source (n : Line) (f : SourceField)
  | station (f : StationField)
  deriving DecidableEq, Repr

def classField : Nat → Option ClassField
  | 0 => some .accept
  | 1 => some .deadline
  | 2 => some .retry
  | 3 => some .attemptLimit
  | 4 => some .reofferLimit
  | 5 => some .affinityUse
  | 6 => some .report
  | _ => none

def sourceField : Nat → Option SourceField
  | 0 => some .trigger
  | 1 => some .polarity
  | 2 => some .cls
  | 3 => some .level
  | 4 => some .dest
  | 5 => some .addr
  | 6 => some .startMasked
  | _ => none

def stationField : Nat → Option StationField
  | 0 => some .tickFactor
  | 1 => some .blockExponent
  | 2 => some .affinityWeight
  | 3 => some .drainLimit
  | 4 => some .attentionThreshold
  | 5 => some .enableInbound
  | 6 => some .enableReport
  | 7 => some .enableStateChange
  | _ => none

/-- The item a group byte and a field byte name, if any (R195). -/
def configItem (group field : Byte) : Option ConfigItem :=
  if group.toNat < 32 then (classField field.toNat).map (.cls (BitVec.ofNat 5 group.toNat))
  else if group.toNat < 40 then (sourceField field.toNat).map (.source (Fin.ofNat 8 (group.toNat - 32)))
  else if group.toNat = 48 then (stationField field.toNat).map .station
  else none

def Configuration.classEntry (c : Configuration) (n : TicketClass) : ClassEntry := c.classes.get n.toFin

def Configuration.sourceConfig (c : Configuration) (n : Line) : SourceConfig := c.sources.get n

/-! Reading a value field of five bytes (R195): each returns none where the value lies outside the item's range. -/

/-- A number with its range. -/
def numberIn (low high : Nat) (v : BitVec 40) : Option Nat :=
  if low ≤ v.toNat ∧ v.toNat ≤ high then some v.toNat else none

def flagOf (v : BitVec 40) : Option Bool := (numberIn 0 1 v).map (· == 1)

def triggerOf (v : BitVec 40) : Option Trigger := (numberIn 0 1 v).map fun n => if n = 0 then .edge else .level

def polarityOf (v : BitVec 40) : Option Polarity := (numberIn 0 1 v).map fun n => if n = 0 then .high else .low

/-- A destination set: bits 0 to 14; bit 15 set, or a byte above it, is out of range. -/
def setValueOf (v : BitVec 40) : Option StationSet := (numberIn 0 (2 ^ 15 - 1) v).map (BitVec.ofNat 15)

/-- A data address: byte 1 the presence flag, bytes 2 to 5 the address, which is ignored where the flag is 0. -/
def addrValueOf (v : BitVec 40) : Option (Option Address) :=
  match v.toNat / 2 ^ 32 with
  | 0 => some none
  | 1 => some (some (BitVec.ofNat 32 v.toNat))
  | _ => none

def ClassEntry.write (e : ClassEntry) (f : ClassField) (v : BitVec 40) : Option ClassEntry :=
  match f with
  | .accept => (flagOf v).map fun x => { e with accept := x }
  | .deadline => (numberIn 0 4095 v).map fun x => { e with deadline := x }
  | .retry => (numberIn 0 255 v).map fun x => { e with retry := x }
  | .attemptLimit => (numberIn 1 15 v).map fun x => { e with attemptLimit := x }
  | .reofferLimit => (numberIn 0 3 v).map fun x => { e with reofferLimit := x }
  | .affinityUse => (flagOf v).map fun x => { e with affinityUse := x }
  | .report => (flagOf v).map fun x => { e with report := x }

def SourceConfig.write (e : SourceConfig) (f : SourceField) (v : BitVec 40) : Option SourceConfig :=
  match f with
  | .trigger => (triggerOf v).map fun x => { e with trigger := x }
  | .polarity => (polarityOf v).map fun x => { e with polarity := x }
  | .cls => (numberIn 0 31 v).map fun x => { e with cls := x }
  | .level => (numberIn 0 7 v).map fun x => { e with level := x }
  | .dest => (setValueOf v).map fun x => { e with dest := x }
  | .addr => (addrValueOf v).map fun x => { e with addr := x }
  | .startMasked => (flagOf v).map fun x => { e with startMasked := x }

def StationItems.write (e : StationItems) (f : StationField) (v : BitVec 40) : Option StationItems :=
  match f with
  | .tickFactor => (numberIn 1 255 v).map fun x => { e with tickFactor := x }
  | .blockExponent => (numberIn 8 16 v).map fun x => { e with blockExponent := x }
  | .affinityWeight => (numberIn 0 15 v).map fun x => { e with affinityWeight := x }
  | .drainLimit => (numberIn 0 4095 v).map fun x => { e with drainLimit := x }
  | .attentionThreshold => (numberIn 1 24 v).map fun x => { e with attentionThreshold := x }
  | .enableInbound => (flagOf v).map fun x => { e with enableInbound := x }
  | .enableReport => (flagOf v).map fun x => { e with enableReport := x }
  | .enableStateChange => (flagOf v).map fun x => { e with enableStateChange := x }

/-- The record with one item written, or none where the value lies outside the item's range (R46, R179). -/
def Configuration.write (c : Configuration) (item : ConfigItem) (v : BitVec 40) : Option Configuration :=
  match item with
  | .cls n f => ((c.classEntry n).write f v).map fun e => { c with classes := c.classes.set n.toFin e }
  | .source n f => ((c.sourceConfig n).write f v).map fun e => { c with sources := c.sources.set n e }
  | .station f => (c.station.write f v).map fun e => { c with station := e }

def flagValue (b : Bool) : BitVec 40 := if b then 1 else 0

def ClassEntry.read (e : ClassEntry) : ClassField → BitVec 40
  | .accept => flagValue e.accept
  | .deadline => BitVec.ofNat 40 e.deadline
  | .retry => BitVec.ofNat 40 e.retry
  | .attemptLimit => BitVec.ofNat 40 e.attemptLimit
  | .reofferLimit => BitVec.ofNat 40 e.reofferLimit
  | .affinityUse => flagValue e.affinityUse
  | .report => flagValue e.report

def SourceConfig.read (e : SourceConfig) : SourceField → BitVec 40
  | .trigger => flagValue (e.trigger == .level)
  | .polarity => flagValue (e.polarity == .low)
  | .cls => BitVec.ofNat 40 e.cls
  | .level => BitVec.ofNat 40 e.level
  | .dest => BitVec.ofNat 40 e.dest.toNat
  | .addr =>
    match e.addr with
    | some a => BitVec.ofNat 40 (2 ^ 32 + a.toNat)
    | none => 0
  | .startMasked => flagValue e.startMasked

def StationItems.read (e : StationItems) : StationField → BitVec 40
  | .tickFactor => BitVec.ofNat 40 e.tickFactor
  | .blockExponent => BitVec.ofNat 40 e.blockExponent
  | .affinityWeight => BitVec.ofNat 40 e.affinityWeight
  | .drainLimit => BitVec.ofNat 40 e.drainLimit
  | .attentionThreshold => BitVec.ofNat 40 e.attentionThreshold
  | .enableInbound => flagValue e.enableInbound
  | .enableReport => flagValue e.enableReport
  | .enableStateChange => flagValue e.enableStateChange

/-- An item's value in the form CONFIG-WRITE takes it (R180). -/
def Configuration.read (c : Configuration) : ConfigItem → BitVec 40
  | .cls n f => (c.classEntry n).read f
  | .source n f => (c.sourceConfig n).read f
  | .station f => c.station.read f

/-! The check JOIN makes over the whole record (R47). -/

def ClassEntry.valid (e : ClassEntry) : Bool :=
  decide (e.deadline ≤ 4095 ∧ e.retry ≤ 255 ∧ 1 ≤ e.attemptLimit ∧ e.attemptLimit ≤ 15 ∧ e.reofferLimit ≤ 3)

def SourceConfig.valid (e : SourceConfig) : Bool := decide (e.cls ≤ 31 ∧ e.level ≤ 7)

def StationItems.valid (e : StationItems) : Bool :=
  decide (1 ≤ e.tickFactor ∧ e.tickFactor ≤ 255 ∧ 8 ≤ e.blockExponent ∧ e.blockExponent ≤ 16 ∧ e.affinityWeight ≤ 15 ∧
    e.drainLimit ≤ 4095 ∧ 1 ≤ e.attentionThreshold ∧ e.attentionThreshold ≤ 24)

/-- Every item lies in its range (R47). -/
def Configuration.valid (c : Configuration) : Bool :=
  c.classes.toList.all ClassEntry.valid && c.sources.toList.all SourceConfig.valid && c.station.valid

/-! ### Block numbers (R134) -/

/-- The block of an address: the address divided by 2^k bytes, remainder discarded, with the station's own k (R4). -/
def blockOf (c : Configuration) (a : Address) : Nat := a.toNat / 2 ^ c.station.blockExponent

/-! ### Codes (R176, R194) -/

inductive ResponseCode where
  | ok
  | empty
  | full
  | state
  | unknown
  | param
  | locked
  deriving DecidableEq, Repr

def ResponseCode.byte : ResponseCode → Byte
  | .ok => 0
  | .empty => 1
  | .full => 2
  | .state => 3
  | .unknown => 4
  | .param => 5
  | .locked => 6

def StationState.code : StationState → Byte
  | .unconfigured => 0
  | .joining => 1
  | .online => 2
  | .draining => 3
  | .offline => 4
  | .muted => 5
  | .faultNumber => 6
  | .faultClash => 6

def StationState.causeCode : StationState → Byte
  | .faultNumber => 1
  | .faultClash => 2
  | .unconfigured => 0
  | .joining => 0
  | .online => 0
  | .draining => 0
  | .offline => 0
  | .muted => 0

def RecordState.code : RecordState → Byte
  | .waiting => 0
  | .backoff _ => 1
  | .offering _ => 2
  | .outstanding _ _ => 3
  | .resolved _ _ => 4

def ReportKind.code : ReportKind → Byte
  | .completed => 0
  | .refused => 1
  | .lapsed => 2
  | .cancelled => 3
  | .noPeer => 4
  | .withdrawn => 5
  | .stale => 6
  | .undelivered => 7

def Source.code : Source → Byte
  | .line l => numByte l.val
  | .soft => 8

def Source.line? : Source → Option Line
  | .line l => some l
  | .soft => none

/-- The eight result bytes of REPORT (R187, section 12.2). -/
def Report.bytes (r : Report) : List Byte :=
  [r.kind.code, r.tag, numByte r.cls.toNat, orAbsent (r.source.map Source.code), numByte r.generation.toNat,
   orAbsent (r.peer.map fun p => numByte p.toNat), orAbsent (r.outcome.map fun c => numByte c.toNat),
   orAbsent (r.attempts.map numByte)]

end Sys2Proof.Machine
end

