-- ==== Sys2Proof/Machine/Flags.lean ====
section
/-! DEFINITION. What follows from the state: which station states do what (R18, section 3.1), the transmit error count (R41),
and the conditions of the attention line (R171). -/

namespace Sys2Proof.Machine

/-! ### Station states -/

/-- The states whose bus unit receives frames (R18): JOINING, ONLINE, DRAINING, MUTED. They are also the states in which
TAKE, FINISH and HAND-BACK are taken (R145, R148). -/
def StationState.receives : StationState → Bool
  | .joining => true
  | .online => true
  | .draining => true
  | .muted => true
  | .unconfigured => false
  | .offline => false
  | .faultNumber => false
  | .faultClash => false

/-- The states whose bus unit drives DBD and starts frames (R18): JOINING, ONLINE, DRAINING. -/
def StationState.sends : StationState → Bool
  | .joining => true
  | .online => true
  | .draining => true
  | .muted => false
  | .unconfigured => false
  | .offline => false
  | .faultNumber => false
  | .faultClash => false

/-- The states that answer notices and JOINs (R33, R35) and send notices and offers (R86, R152): ONLINE, DRAINING. -/
def StationState.answers : StationState → Bool
  | .online => true
  | .draining => true
  | .joining => false
  | .muted => false
  | .unconfigured => false
  | .offline => false
  | .faultNumber => false
  | .faultClash => false

/-- The states that make tickets (R66, R81): ONLINE, MUTED. -/
def StationState.creates : StationState → Bool
  | .online => true
  | .muted => true
  | .joining => false
  | .draining => false
  | .unconfigured => false
  | .offline => false
  | .faultNumber => false
  | .faultClash => false

/-- Every state but UNCONFIGURED and FAULT(NUMBER): those that take RESTART, CANCEL, MASK, TOUCH and FORGET
(section 10.9). -/
def StationState.started : StationState → Bool
  | .unconfigured => false
  | .faultNumber => false
  | .joining => true
  | .online => true
  | .draining => true
  | .offline => true
  | .muted => true
  | .faultClash => true

/-- The bus unit is receiving frames (R18, R19). -/
def State.receiving (s : State) : Bool := s.bus.synchronised && s.control.state.receives

/-! ### The transmit error count (R41) -/

/-- A broken or void own frame raises the count by 8. -/
def errorsAfterBad (n : Nat) : Nat := n + Config.errorStep

/-- A clean own frame lowers the count by 1, not below 0. -/
def errorsAfterClean (n : Nat) : Nat := n - 1

def offerErrors (n : Nat) : OfferFate → Nat
  | .lost => n
  | .broken => errorsAfterBad n
  | .void => errorsAfterBad n
  | .clean _ _ => errorsAfterClean n

def noticeErrors (n : Nat) : NoticeFate → Nat
  | .lost => n
  | .broken => errorsAfterBad n
  | .void => errorsAfterBad n
  | .clean _ _ => errorsAfterClean n

def joinErrors (n : Nat) : JoinFate → Nat
  | .lost => n
  | .broken => errorsAfterBad n
  | .void => errorsAfterBad n
  | .clean _ _ => errorsAfterClean n

def leaveErrors (n : Nat) : LeaveFate → Nat
  | .lost => n
  | .broken => errorsAfterBad n
  | .void => errorsAfterBad n
  | .clean => errorsAfterClean n

/-! ### The attention line (R171, R172) -/

/-- WAITING inbound records (R140): RETURNING records do not count. -/
def waitingInbound (q : List InRecord) : Nat := (q.filter fun r => r.state == .waiting).length

def attentionInbound (s : State) : Bool :=
  s.control.config.station.enableInbound &&
    decide (s.control.config.station.attentionThreshold ≤ waitingInbound s.work.inbound)

def attentionReport (s : State) : Bool :=
  s.control.config.station.enableReport && !s.reports.queue.isEmpty

def attentionStateChange (s : State) : Bool :=
  s.control.config.station.enableStateChange && s.control.stateChanged

/-- ATN# is driven low while an enabled condition holds, and released while RESET# is low (R171, R172). The line holds no
state of its own. -/
def atnLow (s : State) : Bool :=
  !s.held && (attentionInbound s || attentionReport s || attentionStateChange s)

end Sys2Proof.Machine
end

