-- ==== Sys2Proof/Machine/Ops.lean ====
section
/-! DEFINITION. The shared operations of the blocks: responses, the outbound list and its resolutions (chapters 5 and 6), the
sources that wait for a place (chapter 4), copies and their notices (chapter 8), reports (chapter 9), the roster's events and
the entries to station states (chapter 3). Every meaning is built from these. -/

namespace Sys2Proof.Machine

/-- The outcome of a command. -/
abbrev Result := Host.Outcome State Fault Refusal

/-- While RESET# is low the station is held and no command has an effect (R44, R175, log 5). -/
def running (s : State) (f : State → State) : Result :=
  .next (if s.held then s else f s)

/-! ### Responses (R174, R176) -/

/-- The response code and the result bytes that the port shifts out from now on. -/
def respond (code : ResponseCode) (bytes : List Byte) (s : State) : State :=
  { s with port.response := code.byte :: bytes, port.shifted := 0 }

/-- A refusal, and every other answer without result bytes. -/
def answer (code : ResponseCode) (s : State) : State := respond code [] s

/-! ### The outbound list (R77 to R81) -/

def findRecord (tag : Tag) (records : List OutRecord) : Option OutRecord := records.find? fun r => r.tag == tag

def tagUsed (tag : Tag) (records : List OutRecord) : Bool := records.any fun r => r.tag == tag

/-- The record put in the place of the one with its tag; the others keep theirs (R77). -/
def putRecord (r : OutRecord) (s : State) : State :=
  { s with offer.records := s.offer.records.map fun x => if x.tag == r.tag then r else x }

def dropRecord (tag : Tag) (records : List OutRecord) : List OutRecord := records.filter fun r => r.tag != tag

def recordRoom (s : State) : Bool := decide (s.offer.records.length < Config.maxOutbound)

/-- The first tag from `start` upward, wrapping at 255, that no record holds; at most `n` tags are passed over (R80). -/
def firstFreeTag : Nat → Tag → List OutRecord → Tag
  | 0, start, _ => start
  | n + 1, start, records => if tagUsed start records then firstFreeTag n (start + 1) records else start

/-- The tag the next record takes (R80): with at most 31 records in the list the search ends within 32 tags. -/
def nextTag (s : State) : Tag := firstFreeTag Config.maxOutbound s.offer.tagCounter s.offer.records

def classOf (s : State) (cls : TicketClass) : ClassEntry := s.control.config.classEntry cls

/-! ### Source entries (R64, R66 to R72) -/

def setEntry (l : Line) (e : SourceEntry) (s : State) : State := { s with sources := s.sources.set l e }

def entryAt (s : State) (l : Line) : SourceEntry := s.sources.get l

/-- The line is active: its taken level is the one its polarity names (R65). -/
def lineActive (s : State) (l : Line) : Bool :=
  (entryAt s l).takenHigh == ((s.control.config.sourceConfig l).polarity == .high)

def isLevel (s : State) (l : Line) : Bool := (s.control.config.sourceConfig l).trigger == .level

/-- A waiting source (R71): in ONLINE or MUTED, unmasked, and LATCHED, or a level entry QUIET with its line active and its
no-peer hold clear. -/
def waitingSource (s : State) (l : Line) : Bool :=
  s.control.state.creates && !(entryAt s l).masked &&
    ((entryAt s l).state == .latched ||
      (isLevel s l && (entryAt s l).state == .quiet && lineActive s l && !(entryAt s l).hold))

/-- The entry whose record has left the list becomes QUIET, or LATCHED where an edge was latched with the record
(R67, R70); a record of SUBMIT has no entry. -/
def releaseSource (source : Source) (s : State) : State :=
  match source with
  | .soft => s
  | .line l =>
    match (entryAt s l).state with
    | .live _ true => setEntry l { entryAt s l with state := .latched } s
    | .live _ false => setEntry l { entryAt s l with state := .quiet } s
    | .quiet => s
    | .latched => s

/-- A NO-PEER end sets the hold of a level entry (R72). -/
def holdSource (source : Source) (s : State) : State :=
  match source with
  | .soft => s
  | .line l => if isLevel s l then setEntry l { entryAt s l with hold := true } s else s

/-! ### Reports (R164 to R167) -/

def reportRoom (s : State) : Bool := decide (s.reports.queue.length < Config.maxReports)

def pushReport (r : Report) (s : State) : State := { s with reports.queue := s.reports.queue ++ [r] }

/-- A resolution takes the counter's value, and the counter rises by 1 (R163). -/
def countResolution (s : State) : State :=
  { s with reports.resolutionCounter := s.reports.resolutionCounter + 1 }

def Resolution.kind : Resolution → ReportKind
  | .completed _ _ => .completed
  | .refused _ => .refused
  | .lapsed _ => .lapsed
  | .cancelled => .cancelled
  | .noPeer => .noPeer
  | .withdrawn => .withdrawn

def Resolution.peer : Resolution → Option StationNumber
  | .completed _ p => some p
  | .refused _ => none
  | .lapsed _ => none
  | .cancelled => none
  | .noPeer => none
  | .withdrawn => none

def Resolution.outcome : Resolution → Option OutcomeCode
  | .completed c _ => some c
  | .refused _ => none
  | .lapsed _ => none
  | .cancelled => none
  | .noPeer => none
  | .withdrawn => none

def Resolution.attempts : Resolution → Option Nat
  | .completed _ _ => none
  | .refused n => some n
  | .lapsed n => some n
  | .cancelled => none
  | .noPeer => none
  | .withdrawn => none

/-- The report of a resolved outbound record (R117, R164). -/
def recordReport (r : OutRecord) (res : Resolution) : Report :=
  { kind := res.kind, tag := r.tag, cls := r.cls, source := some r.source, generation := r.generation, peer := res.peer,
    outcome := res.outcome, attempts := res.attempts }

/-! ### Resolving a record (R93) -/

/-- The record leaves the list: its tag is free and its source entry is released (R67). -/
def leaveList (r : OutRecord) (s : State) : State :=
  releaseSource r.source { s with offer.records := dropRecord r.tag s.offer.records }

/-- A resolved record leaves the list at its resolution: no report is made for its class, or the report queue has room
(R15, R165). -/
def leavesAtOnce (r : OutRecord) (s : State) : Bool := !(classOf s r.cls).report || reportRoom s

/-- Steps 1 to 4 of R93 for the record `r` as it stands at its resolution: it takes a resolution number; a NO-PEER end is
made known to the source unit; then it leaves the list, with its report placed or without one, or waits RESOLVED. -/
def fixResolution (r : OutRecord) (res : Resolution) (s : State) : State :=
  let counted := countResolution s
  let known := if res = .noPeer then holdSource r.source counted else counted
  if (classOf s r.cls).report then
    if reportRoom s then leaveList r (pushReport (recordReport r res) known)
    else putRecord { r with state := .resolved res s.reports.resolutionCounter } known
  else leaveList r known

/-! ### Making a record (R66, R80 to R83) -/

/-- What a creation copies into the record (R66, R82). -/
structure TicketFields where
  source : Source
  cls : TicketClass
  level : Level
  dest : StationSet
  addr : Option Address
  deriving DecidableEq, Repr

/-- The record a creation places at the end of the list (R81). -/
def newRecord (f : TicketFields) (s : State) : OutRecord :=
  { tag := nextTag s, generation := 0, source := f.source, cls := f.cls, level := f.level, dest := f.dest, addr := f.addr,
    attempts := 0, state := .waiting }

/-- The record placed, and the tag counter past its tag (R80, R81). -/
def placeRecord (r : OutRecord) (s : State) : State :=
  { s with offer.records := s.offer.records ++ [r], offer.tagCounter := r.tag + 1 }

/-- R81: take a tag, place the record, make the NO-PEER test on it (R83). -/
def createRecord (f : TicketFields) (s : State) : State :=
  let r := newRecord f s
  let placed := placeRecord r s
  if setsMeet r.dest s.control.roster then placed else fixResolution r .noPeer placed

/-- The fields a source entry gives its record (R66). -/
def sourceFields (s : State) (l : Line) : TicketFields :=
  let c := s.control.config.sourceConfig l
  { source := .line l, cls := BitVec.ofNat 5 c.cls, level := BitVec.ofNat 3 c.level, dest := c.dest, addr := c.addr }

/-- A source entry makes its record and becomes LIVE with no edge latched (R66). -/
def makeSourceRecord (l : Line) (s : State) : State :=
  createRecord (sourceFields s l) (setEntry l { entryAt s l with state := .live (nextTag s) false } s)

/-- The entry makes a record if it waits for one and a place is free (R66, R70). -/
def serveSource (l : Line) (s : State) : State :=
  if waitingSource s l && recordRoom s then makeSourceRecord l s else s

/-- The waiting source with the lowest line number (R71). -/
def lowestWaiting (s : State) : Option Line := (List.finRange 8).find? fun l => waitingSource s l

/-- Waiting sources take free places one at a time, lowest line number first, until no place or no waiting source is left
(R71, R74). A source served is LIVE, or has had its record end NO-PEER and waits no longer, so eight rounds are enough. -/
def serveWaiting : Nat → State → State
  | 0, s => s
  | n + 1, s =>
    match lowestWaiting s with
    | none => s
    | some l => if recordRoom s then serveWaiting n (makeSourceRecord l s) else s

def serveSources (s : State) : State := serveWaiting 8 s

/-- A record of this source has left the list: its own entry acts first (R70), then the other waiting sources (R71). -/
def placeFreed (source : Source) (s : State) : State :=
  match source with
  | .soft => serveSources s
  | .line l => serveSources (serveSource l s)

/-- R93, with what the source unit does when the record leaves the list (R67, R70, R71). -/
def resolveRecord (r : OutRecord) (res : Resolution) (s : State) : State :=
  if leavesAtOnce r s then placeFreed r.source (fixResolution r res s) else fixResolution r res s

/-- A creation, and what the source unit does where its NO-PEER end frees the place at once (R71). -/
def createAndServe (f : TicketFields) (s : State) : State := serveSources (createRecord f s)

def RecordState.isOutstandingWith (peer : StationNumber) : RecordState → Bool
  | .outstanding c _ => c == peer
  | .waiting => false
  | .backoff _ => false
  | .offering _ => false
  | .resolved _ _ => false

/-- The tags of the records that meet a condition, in list order. -/
def tagsWhere (p : OutRecord → Bool) (s : State) : List Tag := (s.offer.records.filter p).map (·.tag)

/-- Act on each record of the list of tags in turn, as it stands when its turn comes. -/
def forRecords (tags : List Tag) (act : OutRecord → State → State) (s : State) : State :=
  tags.foldl (fun t tag => match findRecord tag t.offer.records with
    | some r => act r t
    | none => t) s

/-! ### Lapse and orphaning (R108, R110) -/

/-- A lapse: re-offered at the next generation, or resolved LAPSED (R108). -/
def lapse (r : OutRecord) (s : State) : State :=
  if r.generation.toNat < (classOf s r.cls).reofferLimit then
    putRecord { r with generation := r.generation + 1, attempts := 0, state := .waiting } s
  else resolveRecord r (.lapsed r.attempts) s

/-- Every OUTSTANDING record whose claimant is the peer lapses, in list order (R110). -/
def orphan (peer : StationNumber) (s : State) : State :=
  forRecords (tagsWhere (fun r => r.state.isOutstandingWith peer) s) lapse s

/-! ### Notices at the originator (R100 to R105) -/

/-- The record a notice matches: OUTSTANDING, with its tag and generation, and its sender as claimant (R100). -/
def matchNotice (tag : Tag) (generation : Generation) (sender : StationNumber) (s : State) : Option OutRecord :=
  s.offer.records.find? fun r =>
    r.tag == tag && r.generation == generation && r.state.isOutstandingWith sender

/-- An accepted RETURN in ONLINE charges an attempt and gives the ticket back, or ends it REFUSED (R103). -/
def returnAccepted (r : OutRecord) (s : State) : State :=
  let charged := { r with attempts := r.attempts + 1 }
  if charged.attempts < (classOf s r.cls).attemptLimit then putRecord { charged with state := .waiting } s
  else resolveRecord charged (.refused charged.attempts) s

/-- What an accepted notice does to its record (R102, R103, R104). -/
def noticeAccepted (kind : NoticeKind) (sender : StationNumber) (r : OutRecord) (s : State) : State :=
  match kind with
  | .done outcome => resolveRecord r (.completed outcome sender) s
  | .ret => if s.control.state = .draining then resolveRecord r .withdrawn s else returnAccepted r s

/-! ### Copies and their notices (R141 to R158) -/

/-- A notice held by an in-service entry or an inbound record, with the fields its frame and its report need. -/
structure HeldNotice where
  ref : CopyRef
  kind : NoticeKind
  originator : StationNumber
  tag : Tag
  generation : Generation
  cls : TicketClass
  age : Nat
  attempts : Nat
  resolution : Option CopyResolution
  deriving DecidableEq, Repr

def slotNotice (i : Fin 8) (e : ServiceEntry) : Option HeldNotice :=
  match e.state with
  | .taken => none
  | .notifying kind age attempts resolution =>
    some { ref := .slot i, kind := kind, originator := e.originator, tag := e.tag, generation := e.generation,
           cls := e.cls, age := age, attempts := attempts, resolution := resolution }

def inboundNotice (r : InRecord) : Option HeldNotice :=
  match r.state with
  | .waiting => none
  | .returning age attempts resolution =>
    some { ref := .inbound r.originator r.tag, kind := .ret, originator := r.originator, tag := r.tag,
           generation := r.generation, cls := r.cls, age := age, attempts := attempts, resolution := resolution }

/-- Every notice the work unit holds (R152). -/
def heldNotices (s : State) : List HeldNotice :=
  (List.finRange 8).filterMap (fun i => (s.work.slots.get i).bind (slotNotice i)) ++
    s.work.inbound.filterMap inboundNotice

def findNotice (ref : CopyRef) (s : State) : Option HeldNotice := (heldNotices s).find? fun n => n.ref == ref

def isCopy (originator : StationNumber) (tag : Tag) (r : InRecord) : Bool := r.originator == originator && r.tag == tag

def setSlot (i : Fin 8) (e : Option ServiceEntry) (s : State) : State := { s with work.slots := s.work.slots.set i e }

def setInbound (q : List InRecord) (s : State) : State := { s with work.inbound := q }

/-- The copy is freed: its slot becomes empty, or its record leaves the queue (R154). -/
def freeCopy (ref : CopyRef) (s : State) : State :=
  match ref with
  | .slot i => setSlot i none s
  | .inbound o t => setInbound (s.work.inbound.filter fun r => !isCopy o t r) s

/-- The notice's attempts and resolution written back into its entry or record (R155, R158). -/
def writeNotice (n : HeldNotice) (s : State) : State :=
  match n.ref with
  | .slot i =>
    match s.work.slots.get i with
    | some e => setSlot i (some { e with state := .notifying n.kind n.age n.attempts n.resolution }) s
    | none => s
  | .inbound o t =>
    setInbound (s.work.inbound.map fun r =>
      if isCopy o t r then { r with state := .returning n.age n.attempts n.resolution } else r) s

def CopyEnd.kind : CopyEnd → ReportKind
  | .stale => .stale
  | .undelivered => .undelivered

/-- The report of a copy that ended STALE or UNDELIVERED (R158, R164). -/
def copyReport (n : HeldNotice) (how : CopyEnd) : Report :=
  { kind := how.kind, tag := n.tag, cls := n.cls, source := none, generation := n.generation, peer := some n.originator,
    outcome := none, attempts := none }

/-- A copy ends STALE or UNDELIVERED: it takes a resolution number, and its report is placed and the copy freed, or it
waits with its resolution (R158). -/
def endCopy (n : HeldNotice) (how : CopyEnd) (s : State) : State :=
  if reportRoom s then freeCopy n.ref (pushReport (copyReport n how) (countResolution s))
  else writeNotice { n with resolution := some { how := how, number := s.reports.resolutionCounter } } (countResolution s)

/-- A self-notice is handed to the offer unit and answered at once (R106, R157). -/
def handSelfNotice (n : HeldNotice) (s : State) : State :=
  match matchNotice n.tag n.generation s.control.number s with
  | some r => freeCopy n.ref (noticeAccepted n.kind s.control.number r s)
  | none => endCopy n .stale s

/-- The notice is one to the station itself that has not been answered (R157). -/
def isSelfNotice (s : State) (n : HeldNotice) : Bool := n.originator == s.control.number && n.resolution.isNone

/-- Hand the copy's notice to the offer unit if it is a self-notice. -/
def handIfSelf (ref : CopyRef) (s : State) : State :=
  match findNotice ref s with
  | some n => if isSelfNotice s n then handSelfNotice n s else s
  | none => s

/-- Insertion into a list kept ascending by a key, after every item with an equal key. -/
def insertBy {α : Type} (key : α → Nat) (a : α) : List α → List α
  | [] => [a]
  | b :: l => if key a < key b then a :: b :: l else b :: insertBy key a l

/-- Stable order by a key. -/
def orderBy {α : Type} (key : α → Nat) (l : List α) : List α := l.foldl (fun acc a => insertBy key a acc) []

/-- Every held self-notice is handed, oldest first (R106, R157). -/
def handSelfNotices (s : State) : State :=
  ((orderBy (·.age) ((heldNotices s).filter (isSelfNotice s))).map (·.ref)).foldl (fun t ref => handIfSelf ref t) s

/-- A copy's entry becomes NOTIFYING with a notice of the next age (R148, R149, R150), and a notice to the station itself is
handed at once in ONLINE and DRAINING (R157). -/
def makeNotice (i : Fin 8) (e : ServiceEntry) (kind : NoticeKind) (s : State) : State :=
  let made := setSlot i (some { e with state := .notifying kind s.work.noticeCounter 0 none })
    { s with work.noticeCounter := s.work.noticeCounter + 1 }
  if s.control.state.answers then handIfSelf (.slot i) made else made

/-! ### Placing waiting items (R166, R167) -/

/-- An item that waits for report room. -/
inductive WaitingItem where
  | record (r : OutRecord) (resolution : Resolution)
  | copy (n : HeldNotice) (how : CopyEnd)
  deriving DecidableEq, Repr

/-- Every waiting item with its resolution number (R166). -/
def waitingItems (s : State) : List (Nat × WaitingItem) :=
  (s.offer.records.filterMap fun r => match r.state with
    | .resolved res n => some (n, .record r res)
    | .waiting => none
    | .backoff _ => none
    | .offering _ => none
    | .outstanding _ _ => none) ++
  (heldNotices s).filterMap fun n => n.resolution.map fun x => (x.number, .copy n x.how)

/-- The first item with the least key. -/
def leastBy {α : Type} (key : α → Nat) : List α → Option α
  | [] => none
  | a :: l =>
    match leastBy key l with
    | some b => if key b < key a then some b else some a
    | none => some a

/-- The item's report is placed at the back of the queue and the item is disposed of (R167). -/
def placeItem (item : WaitingItem) (s : State) : State :=
  match item with
  | .record r res => placeFreed r.source (leaveList r (pushReport (recordReport r res) s))
  | .copy n how => freeCopy n.ref (pushReport (copyReport n how) s)

/-- The queue has gained a place: the waiting item with the lowest resolution number takes it (R166). -/
def placeWaiting (s : State) : State :=
  if reportRoom s then
    match leastBy (·.1) (waitingItems s) with
    | some item => placeItem item.2 s
    | none => s
  else s

/-! ### The drain (R56) -/

/-- No inbound record, no in-service entry, and no outbound record but RESOLVED ones (R56). -/
def drainComplete (s : State) : Bool :=
  s.work.inbound.isEmpty && s.work.slots.toList.all Option.isNone &&
    s.offer.records.all fun r => match r.state with
      | .resolved _ _ => true
      | .waiting => false
      | .backoff _ => false
      | .offering _ => false
      | .outstanding _ _ => false

/-- Station control's test at entry to DRAINING and at each change of a collection: when the condition first holds, the
drain-limit timer stops and the LEAVE candidate is made present (R56). -/
def testDrain (s : State) : State :=
  if s.control.state = .draining ∧ s.control.leaveCandidate = false ∧ drainComplete s = true then
    { s with control.drainTimer := none, control.leaveCandidate := true }
  else s

/-! ### The roster (R53) -/

def addToRoster (n : StationNumber) (s : State) : State :=
  { s with control.roster := setAdd s.control.roster n }

/-! ### The bus unit and the entries to station states -/

/-- The bus unit becomes unsynchronised and between frames, and drops the frame it was receiving (R19, log 13). -/
def loseSynchronisation (s : State) : State :=
  { s with bus.synchronised := false, bus.position := none, bus.recessiveRun := 0, bus.answer := .none,
           claim.offerInHand := none }

/-- The bus unit stops: it becomes unsynchronised, and a frame of its own is abandoned (R18, R28). -/
def stopBus (s : State) : State := { loseSynchronisation s with bus.ownFrame := none }

/-- Every entry's no-peer hold is cleared (R72). -/
def clearHolds (s : State) : State := { s with sources := s.sources.map fun e => { e with hold := false } }

/-- The station's own frame has ended: the bus unit is between frames with a recessive run of 0 (R21), and the error count
takes the fate's value (R41). -/
def endOwnFrame (errors : Nat) (s : State) : State :=
  { s with bus.ownFrame := none, bus.position := none, bus.recessiveRun := 0, bus.errorCount := errors }

/-- Entry to FAULT(CLASH) (R51, R52, R64, R75, R77, R160). -/
def enterFaultClash (s : State) : State :=
  let stopped := stopBus s
  { stopped with
    control.state := .faultClash
    control.roster := 0
    control.joinCandidate := none
    control.mutedResumed := false
    control.stateChanged := true
    offer.records := []
    work.inbound := []
    work.slots := Vector.replicate 8 none
    sources := s.sources.map fun e => { e with state := .quiet, hold := false } }

/-- Entry to MUTED (R42, R59), and the look at the sources that it brings (R74). The station's own number is in the roster in
MUTED (R83, R189), also where it mutes before it was ever ONLINE (log 14). -/
def enterMuted (s : State) : State :=
  serveSources
    { s with
      control.state := .muted
      control.roster := setAdd s.control.roster s.control.number
      control.stateChanged := true
      control.mutedResumed :=
        if s.control.state = .joining then s.control.joinCandidate.getD false else true
      control.joinCandidate := none
      control.drainTimer := none
      control.leaveCandidate := false
      control.drainPassed := false }

/-- A count of 32 or more at the end of an own frame mutes the station (R42). -/
def muteIfDue (s : State) : State :=
  if s.control.state.sends && decide (Config.muteAt ≤ s.bus.errorCount) then enterMuted s else s

/-- Entry to ONLINE (R50): the roster gains the presence set and the station itself; the no-peer holds are cleared (R72), held
self-notices are handed (R157), and the sources looked at (R74): MODEL'S CHOICE of order (log 10). A self-notice whose record
leaves the list frees a place, which waiting sources take before the next self-notice is handed, so resolution numbers of NO-PEER
ends can fall between those of the notices (R163; MODEL'S CHOICE, log 10). -/
def enterOnline (presence : StationSet) (s : State) : State :=
  serveSources (handSelfNotices (clearHolds
    { s with
      control.state := .online
      control.roster := setAdd (s.control.roster ||| presence) s.control.number
      control.joinCandidate := none
      control.stateChanged := true }))

/-- Entry to OFFLINE at the end of a clean LEAVE (R54, R57). -/
def enterOffline (s : State) : State :=
  { stopBus s with
    control.state := .offline
    control.roster := 0
    control.leaveCandidate := false
    control.stateChanged := true }

/-- Entry to JOINING by a JOIN command (R48). -/
def enterJoining (resumed : Bool) (s : State) : State :=
  { loseSynchronisation s with
    control.state := .joining
    control.joinCandidate := some resumed
    control.mutedResumed := false
    bus.errorCount := 0 }

/-- Each entry's mask takes its start-masked value (R76). -/
def applyStartMasked (s : State) : State :=
  { s with sources := Vector.ofFn fun l => { entryAt s l with masked := (s.control.config.sourceConfig l).startMasked } }

end Sys2Proof.Machine
end

