-- ==== Sys2Proof/Machine/ConfigCommands.lean ====
section
/-! DEFINITION. CONFIG_WRITE and CONFIG_READ (R179, R180, R195). -/

namespace Sys2Proof.Machine

/-- The checks of R179 in their order, and the write. -/
def writeConfig (group field : Byte) (value : BitVec 40) (s : State) : State :=
  if s.control.state = .faultNumber then answer .state s
  else if s.control.locked then answer .locked s
  else match configItem group field with
    | none => answer .param s
    | some item =>
      match s.control.config.write item value with
      | none => answer .param s
      | some c => answer .ok { s with control.config := c }

/-- CONFIG_WRITE (R179). -/
def execConfigWrite (group field : Byte) (value : BitVec 40) (s : State) : Result :=
  running s (writeConfig group field value)

/-- The item's value as it stands, in five bytes (R180). -/
def readConfig (group field : Byte) (s : State) : State :=
  match configItem group field with
  | none => answer .param s
  | some item => respond .ok (toBytes 5 (s.control.config.read item).toNat) s

/-- CONFIG_READ (R180). -/
def execConfigRead (group field : Byte) (s : State) : Result := running s (readConfig group field)

end Sys2Proof.Machine
end

