-- ==== Sys2Proof/Machine/Lines.lean ====
section
/-! DEFINITION. LINE_BECOMES_ACTIVE and LINE_BECOMES_INACTIVE: the taken level of a request line changes (R65, R68, R69). -/

namespace Sys2Proof.Machine

/-- The taken level at which a line with this entry's polarity is active (R65). -/
def activeLevel (s : State) (l : Line) : Bool := (s.control.config.sourceConfig l).polarity == .high

def takeLevel (l : Line) (high : Bool) (s : State) : State :=
  setEntry l { entryAt s l with takenHigh := high, oppositeSeen := false } s

/-- An edge entry's edge in ONLINE or MUTED, unmasked (R68): QUIET makes a record, or becomes LATCHED where the list is
full; LATCHED and an edge already latched merge it; LIVE latches it. -/
def edgeTaken (l : Line) (s : State) : State :=
  match (entryAt s l).state with
  | .quiet =>
    if recordRoom s then serveSources (makeSourceRecord l s)
    else setEntry l { entryAt s l with state := .latched } s
  | .latched => s
  | .live tag _ => setEntry l { entryAt s l with state := .live tag true } s

/-- What the entry does when its line has become active (R68, R69); an edge in another state or masked is ignored. -/
def lineActs (l : Line) (s : State) : State :=
  if isLevel s l then serveSources (serveSource l s)
  else if s.control.state.creates && !(entryAt s l).masked then edgeTaken l s
  else s

/-- The line's taken level becomes active; where it already is, there is no event (R65, log 17). -/
def lineActivated (l : Line) (s : State) : State :=
  if lineActive s l then s else lineActs l (takeLevel l (activeLevel s l) s)

/-- LINE_BECOMES_ACTIVE (R68, R69). -/
def execLineBecomesActive (l : Line) (s : State) : Result := running s (lineActivated l)

/-- The line's taken level becomes inactive: a level entry's no-peer hold is cleared, and with it, or with the line, its
waiting ends; nothing else is touched (R68, R69). -/
def lineInactivated (l : Line) (s : State) : State :=
  if lineActive s l then
    let quietLine := takeLevel l (!activeLevel s l) s
    if isLevel s l then setEntry l { entryAt quietLine l with hold := false } quietLine else quietLine
  else s

/-- LINE_BECOMES_INACTIVE (R69). -/
def execLineBecomesInactive (l : Line) (s : State) : Result := running s (lineInactivated l)

end Sys2Proof.Machine
end

