-- ==== Sys2Proof/Machine/Frame.lean ====
section
/-! DEFINITION. Frames as bits on DBD (R17, R21, R22, R24, R193, section 12.1). A bit is `true` for recessive, which is binary
1, and `false` for dominant. Bits of a frame are numbered from the opening bit, which is bit 1. -/

namespace Sys2Proof.Machine

/-- A number on the wire, most significant bit first (R17). -/
def numBits {w : Nat} (x : BitVec w) : List Bool := (List.range w).map x.getMsbD

/-- The number that bits read as, most significant first (R17). -/
def bitsNum (bits : List Bool) : Nat := bits.foldl (fun acc b => 2 * acc + b.toNat) 0

/-- Bits `first` to `last` of a frame (section 12.1). -/
def bitsAt (bits : List Bool) (first last : Nat) : List Bool := (bits.drop (first - 1)).take (last + 1 - first)

/-- The value of a number field (R17). -/
def fieldAt (bits : List Bool) (first last : Nat) : Nat := bitsNum (bitsAt bits first last)

/-- Bit `n` of a frame; a bit not there reads recessive. -/
def bitAt (bits : List Bool) (n : Nat) : Bool := (bits[n - 1]?).getD true

/-- A set on the wire: station 14 first, dominant for a member (R17). -/
def setBits (set : StationSet) : List Bool := numBits (~~~set)

/-- The set that fifteen bits read as (R17). -/
def setAt (bits : List Bool) (first last : Nat) : StationSet := ~~~(BitVec.ofNat 15 (fieldAt bits first last))

/-! ### The check (R24, R193) -/

/-- One bit into the register: the feedback is the register's most significant bit combined with the bit by exclusive-or;
the register is shifted left, and combined with 4129 where the feedback is 1 (R193). -/
def crcStep (r : BitVec 16) (b : Bool) : BitVec 16 :=
  if r.msb ^^ b then (r <<< 1) ^^^ 4129#16 else r <<< 1

/-- The check over the bits from the first kind bit to the bit before the check field, from all ones (R193). -/
def crc (bits : List Bool) : BitVec 16 := bits.foldl crcStep 65535#16

/-! ### Layouts (R21, section 12.1) -/

/-- Where a frame's check, void slot and last bit lie. -/
structure Layout where
  checkFirst : Nat
  checkLast : Nat
  void : Nat
  length : Nat
  deriving DecidableEq, Repr

/-- The kind codes of section 2.3. -/
inductive FrameKind where
  | join
  | leave
  | done
  | ret
  | offer
  deriving DecidableEq, Repr

def FrameKind.code : FrameKind → BitVec 3
  | .join => 0
  | .leave => 1
  | .done => 2
  | .ret => 3
  | .offer => 4

def frameKind : Nat → Option FrameKind
  | 0 => some .join
  | 1 => some .leave
  | 2 => some .done
  | 3 => some .ret
  | 4 => some .offer
  | _ => none

/-- The layout of a kind; for an OFFER, with or without the data address (R21). -/
def layoutOf (kind : FrameKind) (hasAddr : Bool) : Layout :=
  match kind with
  | .join => { checkFirst := 13, checkLast := 28, void := 29, length := 45 }
  | .leave => { checkFirst := 12, checkLast := 27, void := 28, length := 29 }
  | .done => { checkFirst := 33, checkLast := 48, void := 49, length := 51 }
  | .ret => { checkFirst := 33, checkLast := 48, void := 49, length := 51 }
  | .offer =>
    if hasAddr then { checkFirst := 75, checkLast := 90, void := 91, length := 102 }
    else { checkFirst := 43, checkLast := 58, void := 59, length := 70 }

/-! ### What a transmitter sends (R22) -/

def wordKind : NoticeWord → FrameKind
  | .done => .done
  | .ret => .ret

def Frame.kind : Frame → FrameKind
  | .offer _ => .offer
  | .notice n => wordKind n.word
  | .join _ _ => .join
  | .leave _ => .leave

def Frame.hasAddr : Frame → Bool
  | .offer o => o.addr.isSome
  | .notice _ => false
  | .join _ _ => false
  | .leave _ => false

def Frame.layout (f : Frame) : Layout := layoutOf f.kind f.hasAddr

/-- Kind, level and sender (R22): level 000 for every kind but OFFER. -/
def headerBits (kind : FrameKind) (level : Level) (sender : StationNumber) : List Bool :=
  numBits kind.code ++ numBits level ++ numBits sender

/-- The fields from the first kind bit to the bit before the check, in bus order (section 2.3). -/
def Frame.body : Frame → List Bool
  | .offer o =>
    headerBits .offer o.level o.sender ++ numBits o.tag ++ numBits o.generation ++ numBits o.cls ++ setBits o.dest ++
      match o.addr with
      | some a => true :: numBits a
      | none => [false]
  | .notice n =>
    headerBits (wordKind n.word) 0 n.sender ++ numBits n.target ++ numBits n.tag ++ numBits n.generation ++ numBits n.cls ++
      numBits n.outcome
  | .join sender resumed => headerBits .join 0 sender ++ [resumed]
  | .leave sender => headerBits .leave 0 sender

/-- The bits the transmitter drives alone or in contention: opening (dominant), fields, check (R22, R24). -/
def Frame.sentBits (f : Frame) : List Bool := false :: (f.body ++ numBits (crc f.body))

/-! ### What a receiver reads (R17, R21) -/

/-- The kind, once its three bits have been read (R21). -/
def rxKindCode (bits : List Bool) : Nat := fieldAt bits 2 4

/-- The layout of the frame being read, once kind and, in an OFFER, the address flag are known (R21). -/
def rxLayout (bits : List Bool) : Option Layout :=
  if bits.length < 4 then none
  else match frameKind (rxKindCode bits) with
    | none => none
    | some .offer => if bits.length < 42 then none else some (layoutOf .offer (bitAt bits 42))
    | some k => some (layoutOf k false)

def rxSender (bits : List Bool) : StationNumber := BitVec.ofNat 4 (fieldAt bits 8 11)

/-- The check bits read equal the check computed over the bits read (R24). -/
def checkGood (bits : List Bool) (lay : Layout) : Bool :=
  crc (bitsAt bits 2 (lay.checkFirst - 1)) == BitVec.ofNat 16 (fieldAt bits lay.checkFirst lay.checkLast)

/-- The frame is validated: check good and void slot recessive (R24). -/
def validated (bits : List Bool) (lay : Layout) : Bool := checkGood bits lay && bitAt bits lay.void

/-- The fields a receiver finds, up to the check (section 12.1). -/
def rxFrame (bits : List Bool) : Option Frame :=
  match frameKind (rxKindCode bits) with
  | none => none
  | some .join => some (.join (rxSender bits) (bitAt bits 12))
  | some .leave => some (.leave (rxSender bits))
  | some .done => some (.notice (rxNotice .done))
  | some .ret => some (.notice (rxNotice .ret))
  | some .offer =>
    some (.offer
      { sender := rxSender bits
        level := BitVec.ofNat 3 (fieldAt bits 5 7)
        tag := BitVec.ofNat 8 (fieldAt bits 12 19)
        generation := BitVec.ofNat 2 (fieldAt bits 20 21)
        cls := BitVec.ofNat 5 (fieldAt bits 22 26)
        dest := setAt bits 27 41
        addr := if bitAt bits 42 then some (BitVec.ofNat 32 (fieldAt bits 43 74)) else none })
where
  rxNotice (word : NoticeWord) : NoticeFields :=
    { word := word
      sender := rxSender bits
      target := BitVec.ofNat 4 (fieldAt bits 12 15)
      tag := BitVec.ofNat 8 (fieldAt bits 16 23)
      generation := BitVec.ofNat 2 (fieldAt bits 24 25)
      cls := BitVec.ofNat 5 (fieldAt bits 26 30)
      outcome := BitVec.ofNat 2 (fieldAt bits 31 32) }

/-- First bits of the fields after the void slot: bid and claimant of an OFFER (R29, R30). -/
def Layout.bidFirst (lay : Layout) : Nat := lay.void + 1

def Layout.claimantFirst (lay : Layout) : Nat := lay.void + 7

def rxBid (bits : List Bool) (lay : Layout) : BitVec 6 :=
  BitVec.ofNat 6 (fieldAt bits lay.bidFirst (lay.claimantFirst - 1))

def rxClaimant (bits : List Bool) (lay : Layout) : StationNumber :=
  BitVec.ofNat 4 (fieldAt bits lay.claimantFirst (lay.length - 1))

/-- The presence field of a JOIN (R36, section 12.1). -/
def rxPresence (bits : List Bool) : StationSet := setAt bits 30 44

end Sys2Proof.Machine
end

