-- ==== Sys2Proof/Machine/OwnFrames.lean ====
section
/-! DEFINITION. The station's own frames: FRAME_START and the transmit arbiter (R39, R40), and the four frame ends (R38, R89,
R153 to R156, R50, R51, R57), each with its change of the error count (R41) and the entry to MUTED that follows (R42). -/

namespace Sys2Proof.Machine

/-! ### The transmit arbiter -/

/-- The notices that are candidates: no resolution, and another station as originator (R152). -/
def candidateNotices (s : State) : List HeldNotice :=
  (heldNotices s).filter fun n => n.resolution.isNone && n.originator != s.control.number

/-- The oldest candidate notice (R40). -/
def oldestNotice (s : State) : Option HeldNotice := leastBy (·.age) (candidateNotices s)

/-- The fields of a notice frame: a RETURN sends 00 as its outcome code (R22, R152). -/
def noticeFields (s : State) (n : HeldNotice) : NoticeFields :=
  { word := match n.kind with
      | .done _ => .done
      | .ret => .ret
    sender := s.control.number, target := n.originator, tag := n.tag, generation := n.generation, cls := n.cls,
    outcome := match n.kind with
      | .done c => c
      | .ret => 0 }

/-- The fields of an OFFER frame (R22). -/
def offerFields (s : State) (r : OutRecord) : OfferFields :=
  { sender := s.control.number, level := r.level, tag := r.tag, generation := r.generation, cls := r.cls, dest := r.dest,
    addr := r.addr }

/-- The frame is in flight: the bus unit is inside it, and its opening bit is driven in the next bit period (R20, R39). -/
def startFrame (c : Candidate) (f : Frame) (s : State) : State :=
  { s with bus.ownFrame := some { candidate := c, frame := f, status := .transmitting }, bus.position := some [],
           bus.answer := .none }

/-- The WAITING records, lowest level first, then earliest created (R40). -/
def waitingOffers (s : State) : List Tag :=
  (orderBy (fun r => r.level.toNat) (s.offer.records.filter fun r => r.state == .waiting)).map (·.tag)

/-- The first candidate that passes the NO-PEER test becomes the frame and enters OFFERING; one that fails is resolved, and
the choice passes to the next (R39, R83, R88; log 9). -/
def chooseOffer : List Tag → State → State
  | [], s => s
  | tag :: rest, s =>
    match findRecord tag s.offer.records with
    | none => chooseOffer rest s
    | some r =>
      if r.state = .waiting then
        if setsMeet r.dest s.control.roster then
          startFrame (.offer tag) (.offer (offerFields s r)) (putRecord { r with state := .offering false } s)
        else chooseOffer rest (resolveRecord r .noPeer s)
      else chooseOffer rest s

/-- The choice (R39, R40): in JOINING the JOIN alone; else LEAVE, then the oldest notice, then offers. -/
def chooseFrame (s : State) : State :=
  if s.control.state = .joining then
    match s.control.joinCandidate with
    | some resumed => startFrame .join (.join s.control.number resumed) s
    | none => s
  else if s.control.leaveCandidate then startFrame .leave (.leave s.control.number) s
  else match oldestNotice s with
    | some n => startFrame (.notice n.ref) (.notice (noticeFields s n)) s
    | none => chooseOffer (waitingOffers s) s

/-- The bus unit is free to start a frame (R18, R39); that the bus is idle is the event itself (log 8). -/
def freeToStart (s : State) : Bool :=
  s.control.state.sends && s.bus.synchronised && s.bus.ownFrame.isNone && s.bus.position.isNone

/-- FRAME_START (R39): the bus is idle, so no offer is in hand any more (R119). MODEL'S CHOICE (log 30): where a NO-PEER end
within the choice completes the drain (R56, R83), the LEAVE is a candidate from the next choice on. -/
def execFrameStart (s : State) : Result :=
  running s fun s =>
    if freeToStart s then testDrain (chooseFrame { s with claim.offerInHand := none }) else s

/-! ### Frame ends -/

/-- The candidate of the station's own frame in flight, where the station can have one (R18, log 7). -/
def ownCandidate (s : State) : Option Candidate :=
  if s.control.state.sends then s.bus.ownFrame.map (·.candidate) else none

/-- The confirm is driven dominant: the bid field reads 0 to 62 and the claimant field 0 to 14 (R31). -/
def confirms (bid : BitVec 6) (claimant : StationNumber) : Bool := bid != 63 && claimant != 15

/-- The claimant of an OFFER that ended claimed (R31). -/
def claimedBy : OfferFate → Option StationNumber
  | .clean bid claimant => if confirms bid claimant then some claimant else none
  | .lost => none
  | .broken => none
  | .void => none

/-- A deadline or an interval of 0 loads no timer (R85). -/
def timerOf (ticks : Nat) : Option Nat := if ticks = 0 then none else some ticks

/-- A claimed record is OUTSTANDING with its claimant and its class deadline (R90). -/
def claimConfirmed (r : OutRecord) (claimant : StationNumber) (s : State) : State :=
  putRecord { r with state := .outstanding claimant (timerOf (classOf s r.cls).deadline) } s

/-- An unclaimed attempt is counted; at the limit the record is REFUSED, below it BACKOFF or WAITING (R91). -/
def attemptCounted (r : OutRecord) (s : State) : State :=
  let counted := { r with attempts := r.attempts + 1 }
  if counted.attempts < (classOf s r.cls).attemptLimit then
    match timerOf (classOf s r.cls).retry with
    | some n => putRecord { counted with state := .backoff n } s
    | none => putRecord { counted with state := .waiting } s
  else resolveRecord counted (.refused counted.attempts) s

/-- The rows of R89, in their order. -/
def offerDecided (r : OutRecord) (cancelRequested : Bool) (fate : OfferFate) (s : State) : State :=
  if cancelRequested then resolveRecord r .cancelled s
  else if s.control.state = .draining then
    if s.control.drainPassed then resolveRecord r .withdrawn s
    else match claimedBy fate with
      | some c => claimConfirmed r c s
      | none => resolveRecord r .withdrawn s
  else match fate with
    | .clean bid claimant =>
      if confirms bid claimant then claimConfirmed r claimant s else attemptCounted r s
    | .lost => putRecord { r with state := .waiting } s
    | .broken => putRecord { r with state := .waiting } s
    | .void => putRecord { r with state := .waiting } s

/-- The originator learns the claimant it confirmed (R32, R53). -/
def learnClaimant (fate : OfferFate) (s : State) : State :=
  match claimedBy fate with
  | some c => addToRoster c s
  | none => s

/-- A broken or void OFFER of the station's own leaves no claim in hand (R25, R27). -/
def dropHand (fate : OfferFate) (s : State) : State :=
  match fate with
  | .broken => { s with claim.offerInHand := none }
  | .void => { s with claim.offerInHand := none }
  | .lost => s
  | .clean _ _ => s

/-- The fate reaches the offer unit (R38, R89). -/
def offerEnded (tag : Tag) (fate : OfferFate) (s : State) : State :=
  match findRecord tag s.offer.records with
  | none => s
  | some r =>
    match r.state with
    | .offering cancelRequested => offerDecided r cancelRequested fate s
    | .waiting => s
    | .backoff _ => s
    | .outstanding _ _ => s
    | .resolved _ _ => s

/-- The end of the station's own OFFER: the record is decided before any entry to MUTED (R42, R89). -/
def offerFrameEnded (fate : OfferFate) (s : State) : State :=
  match ownCandidate s with
  | some (.offer tag) =>
    testDrain (muteIfDue (offerEnded tag fate
      (learnClaimant fate (dropHand fate (endOwnFrame (offerErrors s.bus.errorCount fate) s)))))
  | some .join => s
  | some .leave => s
  | some (.notice _) => s
  | none => s

/-- OFFER_FRAME_END (R89). -/
def execOfferFrameEnd (fate : OfferFate) (s : State) : Result := running s (offerFrameEnded fate)

/-- A clean notice frame is one attempt; below 8 the notice stays, at 8 its copy ends UNDELIVERED (R155). -/
def notDelivered (n : HeldNotice) (s : State) : State :=
  let counted := { n with attempts := n.attempts + 1 }
  if counted.attempts < Config.noticeAttemptLimit then writeNotice counted s else endCopy counted .undelivered s

/-- The fate and the reply reach the work unit (R34, R153 to R156). -/
def noticeEnded (n : HeldNotice) (fate : NoticeFate) (s : State) : State :=
  match fate with
  | .lost => s
  | .broken => s
  | .void => s
  | .clean false _ => notDelivered n s
  | .clean true false => freeCopy n.ref s
  | .clean true true => endCopy { n with attempts := n.attempts + 1 } .stale s

/-- The end of the station's own DONE or RETURN. -/
def noticeFrameEnded (fate : NoticeFate) (s : State) : State :=
  match ownCandidate s with
  | some (.notice ref) =>
    let after := endOwnFrame (noticeErrors s.bus.errorCount fate) s
    testDrain (muteIfDue (match findNotice ref after with
      | some n => noticeEnded n fate after
      | none => after))
  | some .join => s
  | some .leave => s
  | some (.offer _) => s
  | none => s

/-- NOTICE_FRAME_FATE (R34). -/
def execNoticeFrameFate (fate : NoticeFate) (s : State) : Result := running s (noticeFrameEnded fate)

/-- The joiner's outcome (R50, R51); a JOIN lost, broken or void stays the candidate (R49). -/
def joinEnded (fate : JoinFate) (s : State) : State :=
  match fate with
  | .clean presence false => enterOnline presence s
  | .clean _ true => enterFaultClash s
  | .lost => s
  | .broken => s
  | .void => s

/-- The end of the station's own JOIN. -/
def joinFrameEnded (fate : JoinFate) (s : State) : State :=
  match ownCandidate s with
  | some .join => muteIfDue (joinEnded fate (endOwnFrame (joinErrors s.bus.errorCount fate) s))
  | some .leave => s
  | some (.notice _) => s
  | some (.offer _) => s
  | none => s

/-- JOIN_FRAME_END (R50). -/
def execJoinFrameEnd (fate : JoinFate) (s : State) : Result := running s (joinFrameEnded fate)

/-- A clean LEAVE takes the station OFFLINE; any other stays the candidate (R57). -/
def leaveEnded (fate : LeaveFate) (s : State) : State :=
  match fate with
  | .clean => enterOffline s
  | .lost => s
  | .broken => s
  | .void => s

/-- The end of the station's own LEAVE. -/
def leaveFrameEnded (fate : LeaveFate) (s : State) : State :=
  match ownCandidate s with
  | some .leave => muteIfDue (leaveEnded fate (endOwnFrame (leaveErrors s.bus.errorCount fate) s))
  | some .join => s
  | some (.notice _) => s
  | some (.offer _) => s
  | none => s

/-- LEAVE_FRAME_END (R57). -/
def execLeaveFrameEnd (fate : LeaveFate) (s : State) : Result := running s (leaveFrameEnded fate)

end Sys2Proof.Machine
end

