-- ==== Sys2Proof/Machine/PortEvents.lean ====
section
/-! DEFINITION. UNKNOWN_COMMAND_BYTE and TRANSACTION_DISCARDED: what the local port does with what is no command (R175,
R177). -/

namespace Sys2Proof.Machine

/-- UNKNOWN_COMMAND_BYTE is answered PARAM and has no other effect in any state, whatever the byte (R177). -/
def execUnknownCommandByte (_byte : Byte) (s : State) : Result := running s (answer .param)

/-- The transaction's bytes are dropped, and no response is given (R175). -/
def discardTransaction (s : State) : State :=
  { s with port := { LocalPort.reset with scsLow := s.port.scsLow } }

/-- TRANSACTION_DISCARDED (R175). -/
def execTransactionDiscarded (s : State) : Result := running s discardTransaction

end Sys2Proof.Machine
end

