-- ==== Sys2Proof/Machine/ReadCommands.lean ====
section
/-! DEFINITION. REPORT, STATUS and ROSTER: the commands that read (R168, R187, R188, R189). -/

namespace Sys2Proof.Machine

/-- The oldest report is removed and returned, and the next waiting item, if any, is placed (R166, R168). -/
def reportCommand (s : State) : State :=
  match s.reports.queue with
  | [] => answer .empty s
  | r :: rest => respond .ok r.bytes (testDrain (placeWaiting { s with reports.queue := rest }))

/-- REPORT (R168). -/
def execReport (s : State) : Result := running s reportCommand

/-- In-service entries, TAKEN and NOTIFYING together (R188). -/
def serviceCount (s : State) : Nat := (s.work.slots.toList.filter Option.isSome).length

/-- The nine result bytes of STATUS (R188, section 12.2). -/
def statusBytes (s : State) : List Byte :=
  [s.control.state.code, s.control.state.causeCode, numByte s.control.number.toNat, numByte s.bus.errorCount,
   numByte s.offer.records.length, numByte s.work.inbound.length, numByte (serviceCount s),
   numByte s.reports.queue.length, flagByte s.control.stateChanged]

/-- STATUS returns the figures and then clears the state-changed flag (R62, R188). -/
def statusCommand (s : State) : State := { respond .ok (statusBytes s) s with control.stateChanged := false }

/-- STATUS (R188). -/
def execStatus (s : State) : Result := running s statusCommand

/-- The roster in two bytes; bit 15 reads 0 (R189, R194). -/
def rosterCommand (s : State) : State := respond .ok (toBytes 2 s.control.roster.toNat) s

/-- ROSTER (R189). -/
def execRoster (s : State) : Result := running s rosterCommand

end Sys2Proof.Machine
end

