-- ==== Sys2Proof/Machine/Affinity.lean ====
section
/-! DEFINITION. The affinity table (R134, R135). -/

namespace Sys2Proof.Machine

/-- Use a block: it moves to, or is inserted at, the front; the block used longest ago is removed where there is no room
(R135). -/
def useBlock (block : Nat) (table : List Nat) : List Nat :=
  (block :: table.filter fun b => b != block).take Config.maxAffinity

/-- The block of an address, with the station's own k, is used; an absent address leaves the table (R136, R137). -/
def useAddress (addr : Option Address) (s : State) : State :=
  match addr with
  | some a => { s with claim.affinity := useBlock (blockOf s.control.config a) s.claim.affinity }
  | none => s

end Sys2Proof.Machine
end

