-- ==== Sys2Proof/Machine/Reception.lean ====
section
/-! DEFINITION. What the station reads on DBD from others: the quiet, an unreadable kind, offers and claims, notices, JOIN and
LEAVE, and a bad check (R19, R21, R24, R26, R32 to R37, R52, R53, R57, R101, R120 to R132). A frame takes effect only while the
bus unit is receiving, and one whose sender field reads 15 is handed to no block (R18, R19, R26). -/

namespace Sys2Proof.Machine

/-- While the bus unit receives (R18, R19, log 6). -/
def whenReceiving (f : State → State) (s : State) : State := if s.receiving then f s else s

/-- While the bus unit receives, for a frame whose sender is a station (R26). -/
def fromStation (sender : StationNumber) (f : State → State) (s : State) : State :=
  if s.receiving && sender != 15 then f s else s

def setAnswer (a : Answer) (s : State) : State := { s with bus.answer := a }

/-! ### Synchronisation -/

/-- An unsynchronised bus unit that has counted 110 recessive bit periods is synchronised, between frames, with the bus idle
(R19). -/
def quietSeen (s : State) : State :=
  if s.control.state.receives && !s.bus.synchronised then
    { s with bus.synchronised := true, bus.position := none, bus.recessiveRun := Config.quiet }
  else s

/-- SYNCHRONISATION_QUIET (R19). -/
def execSynchronisationQuiet (s : State) : Result := running s quietSeen

/-- UNREADABLE_KIND: the frame is dropped and the bus unit becomes unsynchronised (R21). -/
def execUnreadableKind (_kind : BitVec 3) (s : State) : Result := running s (whenReceiving loseSynchronisation)

/-! ### Offers and claims (chapter 7) -/

/-- An in-service entry holds the ticket (R121). -/
def inService (originator : StationNumber) (tag : Tag) (s : State) : Bool :=
  s.work.slots.toList.any fun x => match x with
    | some e => e.originator == originator && e.tag == tag
    | none => false

/-- The inbound record that holds the ticket (R122). -/
def inboundCopy (originator : StationNumber) (tag : Tag) (s : State) : Option InRecord :=
  s.work.inbound.find? (isCopy originator tag)

/-- The conditions of R121 that do not depend on held copies. -/
def mayClaim (o : OfferFields) (s : State) : Bool :=
  decide (s.control.state = .online) && setHas o.dest s.control.number && (classOf s o.cls).accept

/-- Eligibility (R121, R122, R123): none where ineligible, else whether the bid is an upgrade. -/
def eligible (o : OfferFields) (s : State) : Option Bool :=
  if !mayClaim o s || inService o.sender o.tag s then none
  else match inboundCopy o.sender o.tag s with
    | some r => if r.state = .waiting ∧ r.generation < o.generation then some true else none
    | none => if s.work.inbound.length < Config.maxInbound then some false else none

/-- The station's load: inbound records and in-service entries, whatever their state (R124). -/
def load (s : State) : Nat := s.work.inbound.length + (s.work.slots.toList.filter Option.isSome).length

/-- The affinity penalty (R14, R125). -/
def penalty (o : OfferFields) (s : State) : Nat :=
  match o.addr with
  | some a =>
    if (classOf s o.cls).affinityUse && !s.claim.affinity.contains (blockOf s.control.config a) then
      s.control.config.station.affinityWeight
    else 0
  | none => 0

/-- The bid for a new ticket is the load plus 1 plus the penalty (R124); an upgrade bids 0 (R126). -/
def bidFor (o : OfferFields) (upgrade : Bool) (s : State) : BitVec 6 :=
  BitVec.ofNat 6 (if upgrade then Config.upgradeBid else load s + 1 + penalty o s)

/-- The claim unit's decision, fixed at the end of the void slot (R120, R127). -/
def decideOffer (o : OfferFields) (s : State) : OfferInHand :=
  match eligible o s with
  | some upgrade => { offer := o, bid := some (bidFor o upgrade s), upgrade := upgrade, inClaim := true }
  | none => { offer := o, bid := none, upgrade := false, inClaim := false }

/-- OFFER_VALIDATED (R120): the offer in hand is taken, and its bid driven from now on. -/
def execOfferValidated (o : OfferFields) (s : State) : Result :=
  running s (fromStation o.sender fun s => { s with claim.offerInHand := some (decideOffer o s) })

/-- A place in queue order: level ascending, then claim sequence number ascending (R142). -/
def queueBefore (a b : InRecord) : Bool :=
  decide (a.level < b.level) || (a.level == b.level && decide (a.claimSequence < b.claimSequence))

/-- The record put in its place in the queue (R142). -/
def insertInbound (r : InRecord) : List InRecord → List InRecord
  | [] => [r]
  | x :: q => if queueBefore r x then r :: x :: q else x :: insertInbound r q

/-- A new ticket is committed with the fields its OFFER carries (R3, R129) and the next claim sequence number (R133). -/
def commitNew (o : OfferFields) (s : State) : State :=
  let r : InRecord :=
    { originator := o.sender, tag := o.tag, generation := o.generation, cls := o.cls, level := o.level, dest := o.dest,
      addr := o.addr, claimSequence := s.claim.claimCounter, state := .waiting }
  { s with work.inbound := insertInbound r s.work.inbound, claim.claimCounter := s.claim.claimCounter + 1 }

/-- The held WAITING copy takes the offer's generation, class, level and address (R130), and its destination set with them
(R3), keeps its claim sequence number, and is put back in its place (R142); a copy taken meanwhile commits nothing (R131). -/
def commitUpgrade (o : OfferFields) (s : State) : State :=
  match inboundCopy o.sender o.tag s with
  | some r =>
    if r.state = .waiting then
      setInbound (insertInbound
        { r with generation := o.generation, cls := o.cls, level := o.level, dest := o.dest, addr := o.addr }
        (s.work.inbound.filter fun x => !isCopy o.sender o.tag x)) s
    else s
  | none => s

/-- The station is the winner: it is still in the claim, and the fields read are the ones it drove (R128, R30). MODEL'S CHOICE
(log 29): a bidder whose dominant bit was read recessive is still in the claim, and does not win. -/
def winsClaim (h : OfferInHand) (bid : BitVec 6) (claimant : StationNumber) (s : State) : Bool :=
  h.inClaim && h.bid == some bid && claimant == s.control.number

/-- The winner commits, if it is still ONLINE (R129 to R131). -/
def commitClaim (h : OfferInHand) (s : State) : State :=
  if s.control.state = .online then (if h.upgrade then commitUpgrade h.offer s else commitNew h.offer s) else s

/-- The claim as read (R32): the sender of the validated OFFER and, where confirm reads dominant, the claimant enter the
roster (R53), and the winner commits; the offer in hand ends with the confirm bit (R119, R132). -/
def claimRead (bid : BitVec 6) (claimant : StationNumber) (confirm : Bool) (s : State) : State :=
  match s.claim.offerInHand with
  | none => s
  | some h =>
    let ended := { addToRoster h.offer.sender s with claim.offerInHand := none, bus.answer := .none }
    if confirm then
      let learned := addToRoster claimant ended
      if winsClaim h bid claimant s then commitClaim h learned else learned
    else ended

/-- CLAIM_AS_READ (R32). -/
def execClaimAsRead (bid : BitVec 6) (claimant : StationNumber) (confirm : Bool) (s : State) : Result :=
  running s (whenReceiving (claimRead bid claimant confirm))

/-! ### Notices (R33, R101 to R105) -/

def wordNotice (n : NoticeFields) : NoticeKind :=
  match n.word with
  | .done => .done n.outcome
  | .ret => .ret

/-- A notice addressed to the station in ONLINE or DRAINING is tested, acted on and answered; in JOINING and MUTED it is
neither tested nor answered (R33, R101). -/
def noticeAnswered (n : NoticeFields) (s : State) : State :=
  if s.control.state.answers then
    match matchNotice n.tag n.generation n.sender s with
    | some r => testDrain (noticeAccepted (wordNotice n) n.sender r (setAnswer (.notice true false) s))
    | none => setAnswer (.notice true true) s
  else setAnswer .none s

/-- NOTICE_RECEIVED (R101): only the station whose number is the target answers (R33). -/
def execNoticeReceived (n : NoticeFields) (s : State) : Result :=
  running s (fromStation n.sender fun s => if n.target = s.control.number then noticeAnswered n s else s)

/-- NOTICE_SENDER_LEARNED (R26, R53). -/
def execNoticeSenderLearned (sender : StationNumber) (s : State) : Result :=
  running s (fromStation sender fun s => setAnswer .none (addToRoster sender s))

/-! ### JOIN and LEAVE (R35, R37, R52, R57) -/

/-- JOIN_ANSWER: ONLINE and DRAINING stations drive their presence position, and the clash slot where the number is theirs
(R35). -/
def execJoinAnswer (sender : StationNumber) (s : State) : Result :=
  running s (fromStation sender fun s =>
    setAnswer (if s.control.state.answers then .join true (sender == s.control.number) else .none) s)

/-- The sender is a known peer that has lost its work, or has gone: its claims are orphaned (R52, R57, R110). No orphaning
names the station itself (R110, log 12). -/
def orphanPeer (sender : StationNumber) (s : State) : State :=
  if setHas s.control.roster sender && sender != s.control.number then orphan sender s else s

/-- The end of another station's clean JOIN, case by case (R52). -/
def joinRead (sender : StationNumber) (resumed clash : Bool) (s : State) : State :=
  if clash then s
  else if sender = s.control.number ∧ (s.control.state = .joining ∨ s.control.state = .muted) then enterFaultClash s
  else if resumed then addToRoster sender s
  else testDrain (addToRoster sender (orphanPeer sender s))

/-- JOIN_RECEIVED (R52). -/
def execJoinReceived (sender : StationNumber) (resumed clash : Bool) (s : State) : Result :=
  running s (fromStation sender fun s => joinRead sender resumed clash (setAnswer .none s))

/-- The number goes at a LEAVE that carries it (R57). The station's own number stays from entry to ONLINE until the roster is
emptied, and in MUTED (R54, R189, log 12); in JOINING with resumed 0 no entry to ONLINE has put it there, and it goes. -/
def goesAtLeave (sender : StationNumber) (s : State) : Bool :=
  sender != s.control.number || (s.control.state == .joining && s.control.joinCandidate == some false)

/-- The end of another station's validated LEAVE: its claims are orphaned, and then it leaves the roster (R57, R54). -/
def leaveRead (sender : StationNumber) (s : State) : State :=
  if setHas s.control.roster sender && goesAtLeave sender s then
    let orphaned := orphanPeer sender s
    testDrain { orphaned with control.roster := setRemove orphaned.control.roster sender }
  else s

/-- LEAVE_RECEIVED (R57); in JOINING, ONLINE and DRAINING the station drove the acknowledge slot (R37). -/
def execLeaveReceived (sender : StationNumber) (s : State) : Result :=
  running s (fromStation sender fun s =>
    leaveRead sender (setAnswer (if s.control.state.sends then .acknowledge else .none) s))

/-- CHECK_FOUND_BAD: a station in JOINING, ONLINE or DRAINING drives the void slot; one in MUTED drives nothing (R24). -/
def execCheckFoundBad (s : State) : Result :=
  running s (whenReceiving fun s => setAnswer (if s.control.state.sends then .void else .none) s)

end Sys2Proof.Machine
end

