-- ==== Sys2Proof/Machine/Reset.lean ====
section
/-! DEFINITION. RESET_ASSERT and RESET_RELEASE (R44, R45). -/

namespace Sys2Proof.Machine

/-- RESET# goes low: a frame of the station's own is abandoned, the bus unit and the port stop, and the station is held
(R16, R28, R44, R175). The items take their reset values when RESET# rises (R44, log 22). -/
def hold (s : State) : State :=
  { stopBus s with held := true, port := { LocalPort.reset with scsLow := s.port.scsLow } }

/-- RESET_ASSERT (R44). -/
def execResetAssert (s : State) : Result := .next (hold s)

/-- RESET# rises, or power-on reset ends: every item takes its reset value, and the straps give the station number and the
starting state (R44). The commands, the pin activity and the level of SCS# are the outside's and stay; a port that finds
SCS# low waits for its next falling edge (R175). -/
def release (straps : StationNumber) (s : State) : State :=
  { State.afterReset straps with
    port := { LocalPort.reset with scsLow := s.port.scsLow }
    pending := s.pending
    inputs := s.inputs
    freeDrawn := s.freeDrawn }

/-- RESET_RELEASE (R44); without a RESET_ASSERT before it, it is the end of power-on reset (log 21). -/
def execResetRelease (straps : StationNumber) (s : State) : Result := .next (release straps s)

end Sys2Proof.Machine
end

