-- ==== Sys2Proof/Machine/StationCommands.lean ====
section
/-! DEFINITION. JOIN, DRAIN and RESTART (R181): the commands of station control. -/

namespace Sys2Proof.Machine

/-- The JOIN that leaves UNCONFIGURED: the record is checked (R47); a valid one is locked, the start-masked values are
applied (R76), and the station enters JOINING with resumed 0 (R48). -/
def firstJoin (s : State) : State :=
  if s.control.config.valid then
    answer .ok (enterJoining false (applyStartMasked { s with control.locked := true }))
  else answer .param s

/-- JOIN by the station state (R48). -/
def joinCommand (s : State) : State :=
  match s.control.state with
  | .unconfigured => firstJoin s
  | .offline => answer .ok (enterJoining false s)
  | .faultClash => answer .ok (enterJoining false s)
  | .muted => answer .ok (enterJoining s.control.mutedResumed s)
  | .faultNumber => answer .state s
  | .joining => answer .state s
  | .online => answer .state s
  | .draining => answer .state s

/-- JOIN (R47, R48). -/
def execJoin (s : State) : Result := running s joinCommand

/-- Entry to DRAINING with the drain-limit timer started, where the limit is not 0 (R55). -/
def startDrain (s : State) : State :=
  { s with
    control.state := .draining
    control.drainTimer :=
      if s.control.config.station.drainLimit = 0 then none else some s.control.config.station.drainLimit
    control.drainPassed := false }

def RecordState.isWaitingOrBackoff : RecordState → Bool
  | .waiting => true
  | .backoff _ => true
  | .offering _ => false
  | .outstanding _ _ => false
  | .resolved _ _ => false

/-- WAITING and BACKOFF records are resolved WITHDRAWN in list order (R97). -/
def withdrawUnoffered (s : State) : State :=
  forRecords (tagsWhere (fun r => r.state.isWaitingOrBackoff) s) (fun r => resolveRecord r .withdrawn) s

/-- The WAITING records of the queue turned to RETURNING, with ages from `age` upward in queue order, and the next age
(R151). -/
def turnReturning : Nat → List InRecord → List InRecord × Nat
  | age, [] => ([], age)
  | age, r :: q =>
    match r.state with
    | .waiting =>
      let rest := turnReturning (age + 1) q
      ({ r with state := .returning age 0 none } :: rest.1, rest.2)
    | .returning _ _ _ =>
      let rest := turnReturning age q
      (r :: rest.1, rest.2)

/-- Every WAITING inbound record becomes RETURNING (R151). -/
def returnWaiting (s : State) : State :=
  let turned := turnReturning s.work.noticeCounter s.work.inbound
  { s with work.inbound := turned.1, work.noticeCounter := turned.2 }

/-- The self-RETURNs made by the drain are handed in queue order (R106, R151). -/
def handSelfReturns (turned : List InRecord) (s : State) : State :=
  turned.foldl (fun t r => handIfSelf (.inbound r.originator r.tag) t) s

/-- Entry to DRAINING discards every latched edge (R74). -/
def discardLatch (e : SourceEntry) : SourceEntry :=
  match e.state with
  | .latched => { e with state := .quiet }
  | .live tag _ => { e with state := .live tag false }
  | .quiet => e

def discardLatches (s : State) : State := { s with sources := s.sources.map discardLatch }

/-- DRAIN taken in ONLINE: the offer unit first, then the work unit, then the source unit (R55, R97, R106, R151, R74), and
the completion test (R56). -/
def drainTaken (s : State) : State :=
  let waiting := s.work.inbound.filter fun r => r.state == .waiting
  testDrain (discardLatches (handSelfReturns waiting (returnWaiting (withdrawUnoffered (startDrain s)))))

def drainCommand (s : State) : State :=
  if s.control.state = .online then answer .ok (drainTaken s) else answer .state s

/-- DRAIN (R55). -/
def execDrain (s : State) : Result := running s drainCommand

/-- RESTART taken (R61; R64, R76, R77, R80, R84, R119, R140, R162, R170 for the blocks). -/
def restartTaken (s : State) : State :=
  { s with
    bus := BusUnit.reset
    control := { s.control with
      state := .joining
      roster := 0
      joinCandidate := some false
      mutedResumed := false
      leaveCandidate := false
      drainTimer := none
      drainPassed := false }
    sources := Vector.ofFn fun l =>
      { entryAt s l with
        state := .quiet
        masked := (s.control.config.sourceConfig l).startMasked
        hold := false }
    offer := { records := [], tagCounter := 0, tickCount := 0 }
    claim := { affinity := [], claimCounter := 0, offerInHand := none }
    work := { inbound := [], slots := Vector.replicate 8 none, noticeCounter := 0 }
    reports := { queue := [], resolutionCounter := 0 } }

def restartCommand (s : State) : State :=
  if s.control.state.started then answer .ok (restartTaken s) else answer .state s

/-- RESTART (R61). -/
def execRestart (s : State) : Result := running s restartCommand

end Sys2Proof.Machine
end

