-- ==== Sys2Proof/Machine/TableCommands.lean ====
section
/-! DEFINITION. MASK, TOUCH and FORGET: the local table commands (R73, R137, R138, R190). -/

namespace Sys2Proof.Machine

/-- Setting the mask discards a latched edge; a live record is not touched (R73). -/
def maskedEntry (e : SourceEntry) : SourceEntry :=
  match e.state with
  | .quiet => { e with masked := true }
  | .latched => { e with masked := true, state := .quiet }
  | .live tag _ => { e with masked := true, state := .live tag false }

/-- Clearing the mask clears the no-peer hold and looks at a level line (R73). -/
def unmaskLine (l : Line) (s : State) : State :=
  let cleared := setEntry l { entryAt s l with masked := false, hold := false } s
  if isLevel s l then serveSources (serveSource l cleared) else cleared

/-- The checks of R190 in their order, and the mask set or cleared. -/
def maskCommand (entry value : Byte) (s : State) : State :=
  if !s.control.state.started then answer .state s
  else if h : entry.toNat < 8 then
    if value = 1 then answer .ok (setEntry ⟨entry.toNat, h⟩ (maskedEntry (entryAt s ⟨entry.toNat, h⟩)) s)
    else if value = 0 then answer .ok (unmaskLine ⟨entry.toNat, h⟩ s)
    else answer .param s
  else answer .param s

/-- MASK (R73, R190). -/
def execMask (entry value : Byte) (s : State) : Result := running s (maskCommand entry value)

def touchCommand (addr : Address) (s : State) : State :=
  if s.control.state.started then answer .ok (useAddress (some addr) s) else answer .state s

/-- TOUCH (R137). -/
def execTouch (addr : Address) (s : State) : Result := running s (touchCommand addr)

def forgetCommand (s : State) : State :=
  if s.control.state.started then answer .ok { s with claim.affinity := [] } else answer .state s

/-- FORGET (R138). -/
def execForget (s : State) : Result := running s forgetCommand

end Sys2Proof.Machine
end

