-- ==== Sys2Proof/Machine/TicketCommands.lean ====
section
/-! DEFINITION. SUBMIT, CANCEL and QUERY: the ticket commands on the originator side (R182 to R184). -/

namespace Sys2Proof.Machine

/-- The parameters of a SUBMIT lie in their ranges (R82, R194): class to 31, level to 7, presence flag 0 or 1, no position
for station number 15. -/
def submitInRange (cls level flag : Byte) (set : BitVec 16) : Bool :=
  decide (cls.toNat ≤ 31 ∧ level.toNat ≤ 7 ∧ flag.toNat ≤ 1) && !set.getLsbD 15

/-- The ticket a SUBMIT asks for; a presence flag of 0 makes the address absent (R182). -/
def submitFields (cls level flag : Byte) (set : BitVec 16) (addr : Address) : TicketFields :=
  { source := .soft, cls := cls.truncate 5, level := level.truncate 3, dest := set.truncate 15,
    addr := if flag = 0 then none else some addr }

/-- The checks of R82 in their order, and the record made. -/
def submitCommand (cls level flag : Byte) (set : BitVec 16) (addr : Address) (s : State) : State :=
  if !s.control.state.creates then answer .state s
  else if !submitInRange cls level flag set then answer .param s
  else if !recordRoom s then answer .full s
  else respond .ok [nextTag s] (createAndServe (submitFields cls level flag set addr) s)

/-- SUBMIT (R82). -/
def execSubmit (cls level flag : Byte) (set : BitVec 16) (addr : Address) (s : State) : Result :=
  running s (submitCommand cls level flag set addr)

/-- CANCEL by the record's state (R95, R96). -/
def cancelRecord (r : OutRecord) (s : State) : State :=
  match r.state with
  | .waiting => answer .ok (testDrain (resolveRecord r .cancelled s))
  | .backoff _ => answer .ok (testDrain (resolveRecord r .cancelled s))
  | .offering _ => answer .ok (putRecord { r with state := .offering true } s)
  | .outstanding _ _ => answer .ok (testDrain (resolveRecord r .cancelled s))
  | .resolved _ _ => answer .state s

def cancelCommand (tag : Tag) (s : State) : State :=
  if !s.control.state.started then answer .state s
  else match findRecord tag s.offer.records with
    | none => answer .unknown s
    | some r => cancelRecord r s

/-- CANCEL (R95). -/
def execCancel (tag : Tag) (s : State) : Result := running s (cancelCommand tag)

/-- The claimant, present only in OUTSTANDING (R184). -/
def RecordState.claimant : RecordState → Option StationNumber
  | .outstanding c _ => some c
  | .waiting => none
  | .backoff _ => none
  | .offering _ => none
  | .resolved _ _ => none

/-- The read-out of a record: state, generation, attempts used, claimant (R184, section 12.2). -/
def recordReadOut (r : OutRecord) : List Byte :=
  [r.state.code, numByte r.generation.toNat, numByte r.attempts, orAbsent (r.state.claimant.map fun c => numByte c.toNat)]

def queryCommand (tag : Tag) (s : State) : State :=
  match findRecord tag s.offer.records with
  | none => answer .unknown s
  | some r => respond .ok (recordReadOut r) s

/-- QUERY (R184). -/
def execQuery (tag : Tag) (s : State) : Result := running s (queryCommand tag)

end Sys2Proof.Machine
end

