-- ==== Sys2Proof/Machine/Timers.lean ====
section
/-! DEFINITION. DEADLINE_TICK, BACKOFF_EXPIRY, DEADLINE_EXPIRY and DRAIN_LIMIT_EXPIRY (R58, R84, R85, R87, R107, R112). A
timer that a tick brings to 0 is held at 0 until its record, or station control, acts on the expiry (log 4). -/

namespace Sys2Proof.Machine

/-- A running timer falls by 1 (R85). -/
def tickState : RecordState → RecordState
  | .backoff n => .backoff (n - 1)
  | .outstanding c (some n) => .outstanding c (some (n - 1))
  | .outstanding c none => .outstanding c none
  | .waiting => .waiting
  | .offering c => .offering c
  | .resolved r n => .resolved r n

/-- The tick count returns to 0, and every running timer of the station falls by 1 (R84, R85, R58). -/
def tick (s : State) : State :=
  { s with
    offer.tickCount := 0
    offer.records := s.offer.records.map fun r => { r with state := tickState r.state }
    control.drainTimer := s.control.drainTimer.map (· - 1) }

/-- DEADLINE_TICK (R84). -/
def execDeadlineTick (s : State) : Result := running s tick

/-- A BACKOFF record whose timer has reached 0 enters WAITING (R87). -/
def backoffExpired (tag : Tag) (s : State) : State :=
  match findRecord tag s.offer.records with
  | some r => if r.state = .backoff 0 then putRecord { r with state := .waiting } s else s
  | none => s

/-- BACKOFF_EXPIRY (R87). -/
def execBackoffExpiry (tag : Tag) (s : State) : Result := running s (backoffExpired tag)

/-- The record is OUTSTANDING and its timer has reached 0 (R107). -/
def RecordState.deadlineDue : RecordState → Bool
  | .outstanding _ (some 0) => true
  | .outstanding _ (some (_ + 1)) => false
  | .outstanding _ none => false
  | .waiting => false
  | .backoff _ => false
  | .offering _ => false
  | .resolved _ _ => false

/-- An OUTSTANDING record whose timer has reached 0 lapses (R107, R108). -/
def deadlineExpired (tag : Tag) (s : State) : State :=
  match findRecord tag s.offer.records with
  | some r => if r.state.deadlineDue then testDrain (lapse r s) else s
  | none => s

/-- DEADLINE_EXPIRY (R107). -/
def execDeadlineExpiry (tag : Tag) (s : State) : Result := running s (deadlineExpired tag)

def RecordState.isWaitingOrOutstanding : RecordState → Bool
  | .waiting => true
  | .outstanding _ _ => true
  | .backoff _ => false
  | .offering _ => false
  | .resolved _ _ => false

/-- Every WAITING or OUTSTANDING record is resolved WITHDRAWN, in list order (R112). -/
def withdrawRemaining (s : State) : State :=
  forRecords (tagsWhere (fun r => r.state.isWaitingOrOutstanding) s) (fun r => resolveRecord r .withdrawn) s

/-- The drain-limit timer has reached 0 in DRAINING: it stops, drain-limit passed becomes yes, and the offer unit resolves
its remaining records (R58, R112). -/
def drainLimitExpired (s : State) : State :=
  if s.control.state = .draining ∧ s.control.drainTimer = some 0 then
    testDrain (withdrawRemaining { s with control.drainTimer := none, control.drainPassed := true })
  else s

/-- DRAIN_LIMIT_EXPIRY (R58). -/
def execDrainLimitExpiry (s : State) : Result := running s drainLimitExpired

end Sys2Proof.Machine
end

