-- ==== Sys2Proof/Machine/WorkCommands.lean ====
section
/-! DEFINITION. TAKE, FINISH and HAND_BACK: the ticket commands on the claimant side (R145 to R149, R185, R186). -/

namespace Sys2Proof.Machine

/-- The lowest-numbered empty slot (R146). -/
def lowestEmptySlot (s : State) : Option (Fin 8) := (List.finRange 8).find? fun i => (s.work.slots.get i).isNone

/-- The first WAITING record in queue order (R146). -/
def firstWaiting (s : State) : Option InRecord := s.work.inbound.find? fun r => r.state == .waiting

/-- The result bytes of TAKE (R185, section 12.2). -/
def takeBytes (i : Fin 8) (r : InRecord) : List Byte :=
  [numByte i.val, numByte r.originator.toNat, r.tag, numByte r.generation.toNat, numByte r.cls.toNat,
   numByte r.level.toNat] ++ addrBytes r.addr

/-- The entry TAKE makes of a record (R146). -/
def takenEntry (r : InRecord) : ServiceEntry :=
  { originator := r.originator, tag := r.tag, generation := r.generation, cls := r.cls, state := .taken }

/-- The record moves into the slot as TAKEN, and its block, if it has one, is used (R136, R146). -/
def takeRecord (i : Fin 8) (r : InRecord) (s : State) : State :=
  useAddress r.addr (setSlot i (some (takenEntry r)) (freeCopy (.inbound r.originator r.tag) s))

/-- The checks of R145 in their order, and the move. -/
def takeCommand (s : State) : State :=
  if !s.control.state.receives then answer .state s
  else match lowestEmptySlot s with
    | none => answer .full s
    | some i =>
      match firstWaiting s with
      | none => answer .empty s
      | some r => respond .ok (takeBytes i r) (takeRecord i r s)

/-- TAKE (R145, R146). -/
def execTake (s : State) : Result := running s takeCommand

/-- A slot byte in range (R148). -/
def slotOf (slot : Byte) : Option (Fin 8) := if h : slot.toNat < 8 then some ⟨slot.toNat, h⟩ else none

/-- The entry of a slot is disposed of with the notice given: UNKNOWN for an empty slot, STATE for a NOTIFYING entry
(R148, R149). -/
def disposeSlot (i : Fin 8) (kind : NoticeKind) (s : State) : State :=
  match s.work.slots.get i with
  | none => answer .unknown s
  | some e =>
    match e.state with
    | .taken => answer .ok (testDrain (makeNotice i e kind s))
    | .notifying _ _ _ _ => answer .state s

/-- The checks of R148 in their order, and the notice. -/
def finishCommand (slot outcome : Byte) (s : State) : State :=
  if !s.control.state.receives then answer .state s
  else match slotOf slot with
    | none => answer .param s
    | some i => if 3 < outcome.toNat then answer .param s else disposeSlot i (.done (outcome.truncate 2)) s

/-- FINISH (R148). -/
def execFinish (slot outcome : Byte) (s : State) : Result := running s (finishCommand slot outcome)

/-- The checks of R149 in their order, and the notice. -/
def handBackCommand (slot : Byte) (s : State) : State :=
  if !s.control.state.receives then answer .state s
  else match slotOf slot with
    | none => answer .param s
    | some i => disposeSlot i .ret s

/-- HAND_BACK (R149). -/
def execHandBack (slot : Byte) (s : State) : Result := running s (handBackCommand slot)

end Sys2Proof.Machine
end

