-- ==== Sys2Proof/Machine/Dispatch.lean ====
section
/-! DEFINITION. One command: the dispatch to its meaning, one arm for each row of spec/opcode_table.json. -/

namespace Sys2Proof.Machine

/-- The effect of a command on everything but the queue. -/
def exec (i : Instr) (s : State) : Host.Outcome State Fault Refusal :=
  match i with
  | .resetAssert => Sys2Proof.Machine.execResetAssert s
  | .resetRelease straps => Sys2Proof.Machine.execResetRelease straps s
  | .configWrite group field value => Sys2Proof.Machine.execConfigWrite group field value s
  | .configRead group field => Sys2Proof.Machine.execConfigRead group field s
  | .join => Sys2Proof.Machine.execJoin s
  | .drain => Sys2Proof.Machine.execDrain s
  | .restart => Sys2Proof.Machine.execRestart s
  | .submit cls level flag set addr => Sys2Proof.Machine.execSubmit cls level flag set addr s
  | .cancel tag => Sys2Proof.Machine.execCancel tag s
  | .query tag => Sys2Proof.Machine.execQuery tag s
  | .take => Sys2Proof.Machine.execTake s
  | .finish slot outcome => Sys2Proof.Machine.execFinish slot outcome s
  | .handBack slot => Sys2Proof.Machine.execHandBack slot s
  | .report => Sys2Proof.Machine.execReport s
  | .status => Sys2Proof.Machine.execStatus s
  | .mask entry value => Sys2Proof.Machine.execMask entry value s
  | .touch addr => Sys2Proof.Machine.execTouch addr s
  | .forget => Sys2Proof.Machine.execForget s
  | .roster => Sys2Proof.Machine.execRoster s
  | .unknownCommandByte byte => Sys2Proof.Machine.execUnknownCommandByte byte s
  | .transactionDiscarded => Sys2Proof.Machine.execTransactionDiscarded s
  | .lineBecomesActive line => Sys2Proof.Machine.execLineBecomesActive line s
  | .lineBecomesInactive line => Sys2Proof.Machine.execLineBecomesInactive line s
  | .deadlineTick => Sys2Proof.Machine.execDeadlineTick s
  | .backoffExpiry tag => Sys2Proof.Machine.execBackoffExpiry tag s
  | .deadlineExpiry tag => Sys2Proof.Machine.execDeadlineExpiry tag s
  | .drainLimitExpiry => Sys2Proof.Machine.execDrainLimitExpiry s
  | .synchronisationQuiet => Sys2Proof.Machine.execSynchronisationQuiet s
  | .unreadableKind kind => Sys2Proof.Machine.execUnreadableKind kind s
  | .frameStart => Sys2Proof.Machine.execFrameStart s
  | .offerValidated offer => Sys2Proof.Machine.execOfferValidated offer s
  | .claimAsRead bid claimant confirm => Sys2Proof.Machine.execClaimAsRead bid claimant confirm s
  | .noticeReceived notice => Sys2Proof.Machine.execNoticeReceived notice s
  | .noticeSenderLearned sender => Sys2Proof.Machine.execNoticeSenderLearned sender s
  | .joinAnswer sender => Sys2Proof.Machine.execJoinAnswer sender s
  | .joinReceived sender resumed clash => Sys2Proof.Machine.execJoinReceived sender resumed clash s
  | .leaveReceived sender => Sys2Proof.Machine.execLeaveReceived sender s
  | .offerFrameEnd fate => Sys2Proof.Machine.execOfferFrameEnd fate s
  | .noticeFrameFate fate => Sys2Proof.Machine.execNoticeFrameFate fate s
  | .joinFrameEnd fate => Sys2Proof.Machine.execJoinFrameEnd fate s
  | .leaveFrameEnd fate => Sys2Proof.Machine.execLeaveFrameEnd fate s
  | .checkFoundBad => Sys2Proof.Machine.execCheckFoundBad s

end Sys2Proof.Machine
end

