-- ==== Sys2Proof/Machine/Pins.lean ====
section
/-! DEFINITION. The clock layer: what one bit period of DBC (R16 to R31, R65, R84) and one edge at the local port's pins (R174,
R175) do. It counts, samples, drives and compares bit by bit, and puts the commands of the opcode table that arise into the
queue, where they are taken before the next bit period (log 1). It decides nothing that a command's meaning decides. -/

namespace Sys2Proof.Machine

def queueEvents (events : List Instr) (s : State) : State := { s with pending := s.pending ++ events }

/-! ### What the station drives on DBD (`true` is undriven) -/

/-- A bidder still in the claim drives its bid and then its number (R29, R30); the decision made at the void slot stands
through a DRAIN (R127, log 11). -/
def claimDrive (s : State) (lay : Layout) (n : Nat) : Bool :=
  match s.claim.offerInHand with
  | none => true
  | some h =>
    match h.bid with
    | none => true
    | some b =>
      if !h.inClaim || n < lay.bidFirst || lay.length ≤ n then true
      else if n < lay.claimantFirst then b.getMsbD (n - lay.bidFirst)
      else s.control.number.getMsbD (n - lay.claimantFirst)

/-- A transmitter drives its own fields and check (R22, R24); in an OFFER, its bid as any bidder, and confirm dominant when
R31 says so. -/
def ownDrive (s : State) (f : Frame) (bits : List Bool) (n : Nat) : Bool :=
  if n ≤ f.layout.checkLast then bitAt f.sentBits n
  else match f with
    | .offer _ =>
      if n = f.layout.length then !confirms (rxBid bits f.layout) (rxClaimant bits f.layout)
      else claimDrive s f.layout n
    | .notice _ => true
    | .join _ _ => true
    | .leave _ => true

/-- A receiver drives the void slot it found bad (R24), its claim (R29), its reply (R33), its presence position and the clash
slot (R35), and the acknowledge slot of a LEAVE it validated (R37). -/
def answerDrive (s : State) (bits : List Bool) (n : Nat) : Bool :=
  match rxLayout bits, frameKind (rxKindCode bits) with
  | some lay, some kind =>
    if n < lay.void then true
    else if n = lay.void then s.bus.answer != .void
    else match kind, s.bus.answer with
      | .offer, _ => claimDrive s lay n
      | .leave, _ => !(validated bits lay && rxSender bits != 15)
      | .join, .join presence clash =>
        if n = lay.length then !clash else !(presence && decide (n = 44 - s.control.number.toNat))
      | .done, .notice heard stale => if n = lay.length then !stale else !heard
      | .ret, .notice heard stale => if n = lay.length then !stale else !heard
      | _, _ => true
  | _, _ => true

/-- The level the station drives on DBD in the next bit period; `true` leaves the line undriven (R16, R18). -/
def drive (s : State) : Bool :=
  if s.held || !s.receiving || !s.control.state.sends then true
  else match s.bus.position with
    | none => true
    | some bits =>
      match s.bus.ownFrame with
      | none => answerDrive s bits (bits.length + 1)
      | some f =>
        match f.status with
        | .transmitting => ownDrive s f.frame bits (bits.length + 1)
        | .lost => answerDrive s bits (bits.length + 1)
        | .broken => true
        | .voided => true

/-! ### Reading one bit inside a frame -/

/-- What bit `n`, driven and read, makes of the station's own frame: contention lost (R23), broken (R23, R27), or void
(R25). -/
def ownReads (n : Nat) (driven read : Bool) (f : OwnFrame) : OwnFrame :=
  let lay := f.frame.layout
  if f.status != .transmitting then f
  else if n ≤ 11 then
    if driven && !read then { f with status := .lost }
    else if !driven && read then { f with status := .broken }
    else f
  else if n ≤ lay.checkLast || (f.frame.kind == .offer && n == lay.length) then
    if driven != read then { f with status := .broken } else f
  else if n = lay.void && !read then { f with status := .voided }
  else f

/-- Bit `n` of the frame lies in the bid or claimant field of an OFFER. -/
def inClaimField (bits : List Bool) (n : Nat) : Bool :=
  frameKind (rxKindCode bits) == some .offer &&
    (rxLayout bits).any fun lay => decide (lay.bidFirst ≤ n) && decide (n < lay.length)

/-- A bidder that drove recessive in the claim field and reads dominant has lost the claim (R29, R30). -/
def claimReads (field driven read : Bool) (h : OfferInHand) : OfferInHand :=
  if field && driven && !read then { h with inClaim := false } else h

/-- The commands at the end of the station's own frame, by how it fared (R26, R38). Of the two that a clean OFFER brings, the
claim as read stands first (MODEL'S CHOICE, log 3). -/
def ownEnd (f : OwnFrame) (bits : List Bool) : List Instr :=
  let lay := f.frame.layout
  match f.candidate with
  | .offer _ =>
    match f.status with
    | .transmitting =>
      [.claimAsRead (rxBid bits lay) (rxClaimant bits lay) (!bitAt bits lay.length),
       .offerFrameEnd (.clean (rxBid bits lay) (rxClaimant bits lay))]
    | .lost => [.offerFrameEnd .lost]
    | .broken => [.offerFrameEnd .broken]
    | .voided => [.offerFrameEnd .void]
  | .notice _ =>
    match f.status with
    | .transmitting => [.noticeFrameFate (.clean (!bitAt bits 50) (!bitAt bits 51))]
    | .lost => [.noticeFrameFate .lost]
    | .broken => [.noticeFrameFate .broken]
    | .voided => [.noticeFrameFate .void]
  | .join =>
    match f.status with
    | .transmitting => [.joinFrameEnd (.clean (rxPresence bits) (!bitAt bits 45))]
    | .lost => [.joinFrameEnd .lost]
    | .broken => [.joinFrameEnd .broken]
    | .voided => [.joinFrameEnd .void]
  | .leave =>
    match f.status with
    | .transmitting => [.leaveFrameEnd .clean]
    | .lost => [.leaveFrameEnd .lost]
    | .broken => [.leaveFrameEnd .broken]
    | .voided => [.leaveFrameEnd .void]

/-- The commands at the end of the void slot of a frame the station has validated (R26). -/
def validatedEvents (s : State) (bits : List Bool) : List Instr :=
  match rxFrame bits with
  | some (.offer o) => [.offerValidated o]
  | some (.notice n) => if n.target = s.control.number then [.noticeReceived n] else []
  | some (.join sender _) => [.joinAnswer sender]
  | some (.leave _) => []
  | none => []

/-- The commands at the end of a frame the station has validated (R26, R32). -/
def receivedEvents (bits : List Bool) (lay : Layout) : List Instr :=
  match rxFrame bits with
  | some (.offer _) => [.claimAsRead (rxBid bits lay) (rxClaimant bits lay) (!bitAt bits lay.length)]
  | some (.notice n) => [.noticeSenderLearned n.sender]
  | some (.join sender resumed) => [.joinReceived sender resumed (!bitAt bits lay.length)]
  | some (.leave sender) => [.leaveReceived sender]
  | none => []

/-- A receiver at bit `n` of a frame, `bits` read so far: an unreadable kind (R21), a bad check (R24), the hand-over points
of R26; at the frame's end, the end of an own frame that lost to it (R38). MODEL'S CHOICE (log 3): the frame received is handed
over first, the fate of the own frame that lost to it (R88) after it. -/
def receiverEvents (s : State) (bits : List Bool) (n : Nat) (lost : List Instr) : List Instr :=
  if n = 4 && (frameKind (rxKindCode bits)).isNone then [.unreadableKind (BitVec.ofNat 3 (rxKindCode bits))]
  else match rxLayout bits with
    | none => []
    | some lay =>
      if n = lay.checkLast then (if checkGood bits lay then [] else [.checkFoundBad])
      else if n = lay.void then (if validated bits lay then validatedEvents s bits else [])
      else if n = lay.length then (if validated bits lay then receivedEvents bits lay else []) ++ lost
      else []

/-- The transmitter at bit `n` of its own frame: its claim unit is asked at the end of a recessive void slot (R29), and the
frame's fate is handed over at its end, counted to the length it intended (R27, R38). -/
def transmitterEvents (f : OwnFrame) (bits : List Bool) (n : Nat) : List Instr :=
  if n = f.frame.layout.void && f.status == .transmitting then
    match f.frame with
    | .offer o => [.offerValidated o]
    | .notice _ => []
    | .join _ _ => []
    | .leave _ => []
  else if n = f.frame.layout.length then ownEnd f bits
  else []

/-- The frame ends with its last bit (R21): for a transmitter at the length it intended, else at the length read. -/
def frameOver (own : Option OwnFrame) (bits : List Bool) (n : Nat) : Bool :=
  match own with
  | some f =>
    if f.status == .lost then (rxLayout bits).any fun lay => n == lay.length else n == f.frame.layout.length
  | none => (rxLayout bits).any fun lay => n == lay.length

/-- The station reads bit `read` inside a frame (R20 to R31). -/
def insideBit (read : Bool) (before : List Bool) (s : State) : State × List Instr :=
  let bits := before ++ [read]
  let n := bits.length
  let own := s.bus.ownFrame.map (ownReads n (drive s) read)
  let events := match own with
    | none => receiverEvents s bits n []
    | some f =>
      if f.status == .lost then receiverEvents s bits n (ownEnd f bits) else transmitterEvents f bits n
  let inFrame := { s with
    bus.ownFrame := own
    bus.position := some bits
    claim.offerInHand := s.claim.offerInHand.map (claimReads (inClaimField bits n) (drive s) read) }
  if frameOver own bits n then
    ({ inFrame with bus.position := none, bus.recessiveRun := 0, bus.answer := .none }, events)
  else (inFrame, events)

/-- The bus unit samples DBD (R16, R19, R20). -/
def busBit (read : Bool) (s : State) : State × List Instr :=
  if !s.control.state.receives then (s, [])
  else
    let run := if read then s.bus.recessiveRun + 1 else 0
    if !s.bus.synchronised then
      ({ s with bus.recessiveRun := run }, if Config.quiet ≤ run then [.synchronisationQuiet] else [])
    else match s.bus.position with
      | some bits => insideBit read bits s
      | none =>
        if !read && decide (Config.busIdle ≤ s.bus.recessiveRun) then
          ({ s with bus.position := some [false], bus.answer := .none }, [])
        else ({ s with bus.recessiveRun := run }, [])

/-- The boundary after a bit period is one at which the station may start a frame: it is, or has just become, synchronised,
between frames and with the bus idle (R20, R39). -/
def boundaryEvents (s : State) : List Instr :=
  if s.control.state.sends && s.bus.position.isNone && s.bus.ownFrame.isNone &&
      decide ((if s.bus.synchronised then Config.busIdle else Config.quiet) ≤ s.bus.recessiveRun) then [.frameStart]
  else []

/-! ### The lines and the tick -/

/-- The sample of one line: the second consecutive sample opposite to the taken level makes it the taken level (R65). -/
def sampleLine (s : State) (src : BitVec 8) (l : Line) : SourceEntry × List Instr :=
  let e := entryAt s l
  let high := src.getLsbD l.val
  if high == e.takenHigh then ({ e with oppositeSeen := false }, [])
  else if !e.oppositeSeen then ({ e with oppositeSeen := true }, [])
  else ({ e with oppositeSeen := false },
    if high == ((s.control.config.sourceConfig l).polarity == .high) then [.lineBecomesActive l]
    else [.lineBecomesInactive l])

def lineEvents (s : State) (src : BitVec 8) : List Instr :=
  (List.finRange 8).flatMap fun l => (sampleLine s src l).2

/-- The tick count rises in every bit period, and a tick occurs when it reaches T × 1024 (R84). -/
def tickEvents (s : State) : List Instr :=
  if s.control.config.station.tickFactor * Config.tickBits ≤ s.offer.tickCount + 1 then [.deadlineTick] else []

/-- One bit period of DBC, with the levels sampled on DBD and SRC0 to SRC7. While RESET# is low nothing is sampled or counted
(R16, R65, R84). The commands of one boundary stand in the order of log 3. -/
def bitPeriod (dbd : Bool) (src : BitVec 8) (s : State) : State :=
  if s.held then s
  else
    let bus := busBit dbd s
    queueEvents (bus.2 ++ tickEvents s ++ lineEvents s src ++ boundaryEvents bus.1)
      { bus.1 with
        offer.tickCount := s.offer.tickCount + 1
        sources := Vector.ofFn fun l => (sampleLine s src l).1 }

/-! ### The local port's pins (R174, R175) -/

/-- SCS# falls: a transaction begins, unless RESET# is low. -/
def portFall (s : State) : State :=
  if s.held then { s with port.scsLow := true }
  else { s with port := { LocalPort.reset with scsLow := true, active := true }, freeDrawn := s.freeDrawn + 1 }

/-- SCS# rises: the transaction ends; a command not yet complete is discarded. -/
def portRise (s : State) : State :=
  let closed := { s with port.scsLow := false, port.active := false }
  if s.port.active && !s.port.taken then queueEvents [.transactionDiscarded] closed else closed

/-- A rising edge of SCK: a bit of the command or its parameters, most significant first; with the last parameter byte the
command takes effect. After that SDI is ignored and the response moves on. A level of SDO that R174 leaves open is a free value
of its own (log 15). -/
def portClock (sdi : Bool) (s : State) : State :=
  if !s.port.active then s
  else if s.port.taken then { s with port.shifted := s.port.shifted + 1 }
  else
    let bits := s.port.bits ++ [sdi]
    let drawn := { s with freeDrawn := s.freeDrawn + 1 }
    if bits.length < 8 then { drawn with port.bits := bits }
    else
      let bytes := s.port.bytes ++ [BitVec.ofNat 8 (bitsNum bits)]
      match decodePort bytes with
      | none => { drawn with port.bits := [], port.bytes := bytes }
      | some c => queueEvents [c] { drawn with port.bits := [], port.bytes := bytes, port.taken := true }

/-- The bits of the response, most significant bit of each byte first. -/
def responseBits (s : State) : List Bool := s.port.response.flatMap numBits

/-- The level at SDO: none while released (SCS# high, or RESET# low); the response, and 1 after its last bit; before the
response a level the spec does not give (R174, log 15). MODEL'S CHOICE (log 31): SDO stays released where RESET# has risen while
SCS# is low and the port waits for SCS# to rise (R175), a case for which the spec gives no level. -/
def sdo (s : State) : Option Bool :=
  if !s.port.active then none
  else if s.port.taken then some ((responseBits s)[s.port.shifted]?.getD true)
  else some (Config.sdoBeforeResponse s.freeDrawn)

/-! ### What the block does when no command waits -/

def takeInput (e : PinInput) (s : State) : State :=
  match e with
  | .bitPeriod dbd src => bitPeriod dbd src s
  | .scsFall => portFall s
  | .scsRise => portRise s
  | .sck sdi => portClock sdi s

/-- The expiry that a record's timer at 0 calls for (R85). -/
def recordExpiry (r : OutRecord) : List Instr :=
  match r.state with
  | .backoff 0 => [.backoffExpiry r.tag]
  | .outstanding _ (some 0) => [.deadlineExpiry r.tag]
  | _ => []

/-- The expiries a tick has made due and no command has taken: the records' in list order (R85), then the drain limit's
(R58; log 4). -/
def dueExpiries (s : State) : List Instr :=
  if s.held then []
  else s.offer.records.flatMap recordExpiry ++
    if s.control.state = .draining ∧ s.control.drainTimer = some 0 then [.drainLimitExpiry] else []

/-- With no command waiting: the due expiries are queued; else the next pin activity is taken; else the block idles
(log 1). -/
def idle (s : State) : State :=
  match dueExpiries s with
  | c :: rest => queueEvents (c :: rest) s
  | [] =>
    match s.inputs with
    | e :: rest => takeInput e { s with inputs := rest }
    | [] => s

end Sys2Proof.Machine
end

