-- ==== Sys2Proof/Machine/Step.lean ====
section
/-! DEFINITION. One step of the block. -/

namespace Sys2Proof.Machine

/-- Take the command at the front of the queue and run it on the state with the queue's rest; on an empty queue, what
`idle` does (log 1). -/
def step (s : State) : Host.Outcome State Fault Refusal :=
  match s.pending with
  | c :: rest => exec c { s with pending := rest }
  | [] => .next (idle s)

/-- The state with the command that a word spells at the front of its queue; unchanged where the word spells none. The
block loads no program: its commands come from outside (log 28). -/
def State.withFetchWord (s : State) (nbits w : Nat) : State :=
  match decodeTableWord nbits w with
  | some c => { s with pending := c :: s.pending }
  | none => s

end Sys2Proof.Machine
end

