-- ==== Sys2Proof/Safety.lean ====
section
/-! DEFINITION. What a sound station is, in the spec's own laws of its collections and items, and the words the statements
are made in: what a command or event leaves alone, what a resolution leaves behind, and the ranges of the configuration
items. -/

namespace Sys2Proof.Machine

/-! ### Laws of the collections -/

/-- The lists keep within their sizes (R77, R162, R134), no two outbound records share a tag (R77), and no block stands twice
in the affinity table (R134). -/
def State.ListsSound (s : State) : Prop :=
  s.offer.records.length ≤ 32 ∧ (s.offer.records.map (·.tag)).Nodup ∧ s.reports.queue.length ≤ 16 ∧
    s.claim.affinity.length ≤ 16 ∧ s.claim.affinity.Nodup

/-- The (originator, tag) of every copy held, in the queue and then in the slots (R143). -/
def State.copies (s : State) : List (StationNumber × Tag) :=
  s.work.inbound.map (fun r => (r.originator, r.tag)) ++
    s.work.slots.toList.filterMap (fun x => x.map fun e => (e.originator, e.tag))

/-- The inbound queue keeps within its size (R141) and in queue order (R142) with claim sequence numbers given once (R133), no
ticket is held twice (R143), and a bid for a new ticket has a free place and no held copy beside it (R122, R123, R131). -/
def State.WorkSound (s : State) : Prop :=
  s.work.inbound.length ≤ 24 ∧ s.work.inbound.Pairwise (fun a b => queueBefore a b = true) ∧
    (s.work.inbound.map (·.claimSequence)).Nodup ∧ (∀ r ∈ s.work.inbound, r.claimSequence < s.claim.claimCounter) ∧
    s.copies.Nodup ∧
    ∀ h, s.claim.offerInHand = some h → h.bid ≠ none → h.upgrade = false →
      s.work.inbound.length < 24 ∧ (h.offer.sender, h.offer.tag) ∉ s.copies

/-- Which candidates a station may have in flight: its JOIN in JOINING, its LEAVE in DRAINING with the LEAVE candidate present,
a notice or an offer in ONLINE and DRAINING (R18, R40). -/
def Candidate.sentIn (c : Candidate) (s : State) : Prop :=
  match c with
  | .join => s.control.state = .joining
  | .leave => s.control.state = .draining ∧ s.control.leaveCandidate = true
  | .notice _ => s.control.state.answers = true
  | .offer _ => s.control.state.answers = true

/-- Station control's items agree with the station state: FAULT(NUMBER) is strap value 15 (R44); the record is locked, and
valid, in every other state but UNCONFIGURED (R46, R47); JOIN and LEAVE candidates and the drain-limit timer are present only
where R48, R56 and R58 put them; a station ONLINE, DRAINING or MUTED is in its own roster (R54, R189); the bus unit is
synchronised only where it receives, and sends only what it may (R18, R40); and a station that sends has a count below 32
(R41, R42). -/
def State.ControlSound (s : State) : Prop :=
  (s.control.number = 15 ↔ s.control.state = .faultNumber) ∧
    (s.control.locked = true ↔ s.control.state ≠ .unconfigured ∧ s.control.state ≠ .faultNumber) ∧
    (s.control.locked = true → s.control.config.valid = true) ∧
    (s.control.joinCandidate ≠ none ↔ s.control.state = .joining) ∧
    (s.control.leaveCandidate = true → s.control.state = .draining ∧ s.control.drainTimer = none) ∧
    (s.control.drainTimer ≠ none → s.control.state = .draining) ∧
    (s.control.state.answers = true ∨ s.control.state = .muted → setHas s.control.roster s.control.number = true) ∧
    (s.bus.synchronised = true → s.control.state.receives = true) ∧
    (∀ f, s.bus.ownFrame = some f → f.candidate.sentIn s) ∧
    s.bus.errorCount ≤ 39 ∧ (s.control.state.sends = true → s.bus.errorCount ≤ 31)

/-- A record that is not RESOLVED is still in play. -/
def RecordState.inPlay : RecordState → Bool
  | .resolved _ _ => false
  | .waiting => true
  | .backoff _ => true
  | .offering _ => true
  | .outstanding _ _ => true

/-- Before the lock every entry is QUIET, and a level entry is QUIET, or LIVE with no edge latched (R64). -/
def State.EntriesSound (s : State) : Prop :=
  (s.control.locked = false → ∀ l, (entryAt s l).state = .quiet) ∧
    ∀ l, isLevel s l = true → (entryAt s l).state ≠ .latched ∧ ∀ tag, (entryAt s l).state ≠ .live tag true

/-- The entries' states are those of R64; a LIVE entry's record is in the list, and a line's record in the list is its entry's
(R67); records exist only under the lock (R66, R81); generation and attempts used keep within the class's limits (R12, R108). -/
def State.TicketsSound (s : State) : Prop :=
  s.EntriesSound ∧
    (∀ l tag latched, (entryAt s l).state = .live tag latched →
      ∃ r ∈ s.offer.records, r.tag = tag ∧ r.source = .line l) ∧
    (∀ r ∈ s.offer.records, ∀ l, r.source = .line l → ∃ latched, (entryAt s l).state = .live r.tag latched) ∧
    (s.offer.records ≠ [] → s.control.locked = true) ∧
    ∀ r ∈ s.offer.records, r.generation.toNat ≤ (classOf s r.cls).reofferLimit ∧
      r.attempts ≤ (classOf s r.cls).attemptLimit ∧
      (r.state.inPlay = true → r.attempts < (classOf s r.cls).attemptLimit)

/-- No source waits beside a free place (R71), no masked entry holds a latched edge (R73), and every entry is QUIET before
the lock (R64, R68). -/
def State.ServedSound (s : State) : Prop :=
  (∀ l, waitingSource s l = true → 32 ≤ s.offer.records.length) ∧
    (∀ l, (entryAt s l).masked = true →
      (entryAt s l).state ≠ .latched ∧ ∀ tag, (entryAt s l).state ≠ .live tag true) ∧
    (s.control.locked = false → ∀ l, (entryAt s l).state = .quiet)

/-- The LEAVE candidate is present in DRAINING exactly when the drain is complete (R56). -/
def State.DrainSound (s : State) : Prop :=
  s.control.state = .draining → (s.control.leaveCandidate = true ↔ drainComplete s = true)

/-- Every law of a sound station. -/
def State.Sound (s : State) : Prop :=
  s.ListsSound ∧ s.WorkSound ∧ s.ControlSound ∧ s.TicketsSound ∧ s.ServedSound ∧ s.DrainSound

/-! ### What is left alone -/

/-- From `s` to `t` only the offer unit, the source unit and the report unit have acted: new records stand behind the reports
and numbers already given, and no mask or taken level has moved. -/
structure OnlyTickets (s t : State) : Prop where
  bus : t.bus = s.bus
  control : t.control = s.control
  claim : t.claim = s.claim
  work : t.work = s.work
  port : t.port = s.port
  held : t.held = s.held
  pending : t.pending = s.pending
  inputs : t.inputs = s.inputs
  freeDrawn : t.freeDrawn = s.freeDrawn
  tickCount : t.offer.tickCount = s.offer.tickCount
  masks : ∀ l, (entryAt t l).masked = (entryAt s l).masked ∧ (entryAt t l).takenHigh = (entryAt s l).takenHigh ∧
    (entryAt t l).oppositeSeen = (entryAt s l).oppositeSeen
  reports : s.reports.queue <+: t.reports.queue
  numbers : s.reports.resolutionCounter ≤ t.reports.resolutionCounter

/-- Station control after the test of R56 at a change of a collection: `t`'s collections decide. -/
def drainTested (s t : State) : StationControl :=
  if s.control.state = .draining ∧ s.control.leaveCandidate = false ∧ drainComplete t = true then
    { s.control with drainTimer := none, leaveCandidate := true }
  else s.control

/-- As `OnlyTickets`, with the answer in the port and station control's drain test made after it. -/
def TicketsThenDrain (s t : State) : Prop :=
  OnlyTickets { s with control := t.control, port := t.port } t ∧ t.control = drainTested s t

/-! ### What a resolution leaves -/

/-- The record `r` of `s` has been resolved `res` in `t` (R93, R15, R165): its number is drawn; with no report to make, or
with room for it, the record is gone, with its report at the back of the queue as it stood; else it waits RESOLVED in its
place. A record gone may have made room for others behind the ones kept (R70, R71). -/
def ResolvedIn (r : OutRecord) (res : Resolution) (s t : State) : Prop :=
  s.reports.resolutionCounter < t.reports.resolutionCounter ∧
    if (classOf s r.cls).report then
      if s.reports.queue.length < 16 then
        (s.reports.queue ++ [recordReport r res]) <+: t.reports.queue ∧ dropRecord r.tag s.offer.records <+: t.offer.records
      else
        t.reports.queue = s.reports.queue ∧
          t.offer.records = s.offer.records.map fun x =>
            if x.tag = r.tag then { r with state := .resolved res s.reports.resolutionCounter } else x
    else s.reports.queue <+: t.reports.queue ∧ dropRecord r.tag s.offer.records <+: t.offer.records

/-- As `ResolvedIn`, where an entry to MUTED may have let lines make further records after the resolution (R74). -/
def ResolvedAtMuting (r : OutRecord) (res : Resolution) (s t : State) : Prop :=
  s.reports.resolutionCounter < t.reports.resolutionCounter ∧
    if (classOf s r.cls).report then
      if s.reports.queue.length < 16 then
        (s.reports.queue ++ [recordReport r res]) <+: t.reports.queue ∧ dropRecord r.tag s.offer.records <+: t.offer.records
      else
        t.reports.queue = s.reports.queue ∧
          (s.offer.records.map fun x =>
            if x.tag = r.tag then { r with state := .resolved res s.reports.resolutionCounter } else x) <+: t.offer.records
    else s.reports.queue <+: t.reports.queue ∧ dropRecord r.tag s.offer.records <+: t.offer.records

/-- The tag is the first from the tag counter upward, 0 after 255, that no record holds (R80). -/
def FirstFreeTag (tag : Tag) (s : State) : Prop :=
  (∀ r ∈ s.offer.records, r.tag ≠ tag) ∧
    ∃ k, k ≤ 32 ∧ tag = s.offer.tagCounter + BitVec.ofNat 8 k ∧
      ∀ j, j < k → ∃ r ∈ s.offer.records, r.tag = s.offer.tagCounter + BitVec.ofNat 8 j

/-- The record `r` has been made from `s` to `t` (R81, R83): it stands at the end of the list, and the tag counter past its
tag (R80); with no station in common with the roster it has been resolved NO-PEER there. -/
def MadeIn (r : OutRecord) (s t : State) : Prop :=
  t.offer.tagCounter = r.tag + 1 ∧
    if setsMeet r.dest s.control.roster then
      t.offer.records = s.offer.records ++ [r] ∧ t.reports = s.reports
    else ResolvedIn r .noPeer { s with offer.records := s.offer.records ++ [r] } t

/-- The record a line makes, with its entry's configured values (R66). -/
def lineRecord (l : Line) (tag : Tag) (s : State) : OutRecord :=
  let c := s.control.config.sourceConfig l
  { tag := tag, generation := 0, source := .line l, cls := BitVec.ofNat 5 c.cls, level := BitVec.ofNat 3 c.level,
    dest := c.dest, addr := c.addr, attempts := 0, state := .waiting }

/-- The record has been made by a line after `s` (R66): it waits, or has ended NO-PEER and waits for report room. -/
def LineMade (s : State) (x : OutRecord) : Prop :=
  ∃ l, x = { lineRecord l x.tag s with state := x.state } ∧ (x.state = .waiting ∨ ∃ k, x.state = .resolved .noPeer k)

/-- The record `r` of `s` has been resolved `res` somewhere between `s` and `t` (R93, R15): it waits RESOLVED beside a full
report queue; or it is gone, its tag free for a record that a line makes, and its report, where its class makes one, is
placed. -/
def EndedIn (r : OutRecord) (res : Resolution) (s t : State) : Prop :=
  ((classOf s r.cls).report = true ∧ 16 ≤ t.reports.queue.length ∧
      ∃ k, s.reports.resolutionCounter ≤ k ∧ { r with state := .resolved res k } ∈ t.offer.records) ∨
    ((∀ x ∈ t.offer.records, x.tag = r.tag → LineMade s x) ∧
      ((classOf s r.cls).report = true → recordReport r res ∈ t.reports.queue))

/-- Of two ends between `s` and `t` the first has taken its resolution number before the second (R163). An end shows in `t` as
its report, behind those of `s` (`first`, `second`), or as an item that waits with its number (`firstWaits`,
`secondWaits`). -/
def TakenBefore (first : Report) (firstWaits : Nat → Prop) (second : Report) (secondWaits : Nat → Prop) (s t : State) : Prop :=
  let placed := t.reports.queue.drop s.reports.queue.length
  [first, second].Sublist placed ∨
    (first ∈ placed ∧ ∃ k, s.reports.resolutionCounter ≤ k ∧ secondWaits k) ∨
    ∃ j k, s.reports.resolutionCounter ≤ j ∧ j < k ∧ firstWaits j ∧ secondWaits k

/-- The records of `s` that `ends` gives a resolution, and whose class makes a report, have taken their numbers in list order
(R97, R110, R112, R163). -/
def EndedInListOrder (ends : OutRecord → Resolution → Prop) (s t : State) : Prop :=
  ∀ a b resA resB, [a, b].Sublist s.offer.records → ends a resA → ends b resB → (classOf s a.cls).report = true →
    (classOf s b.cls).report = true →
    TakenBefore (recordReport a resA) (fun k => { a with state := .resolved resA k } ∈ t.offer.records)
      (recordReport b resB) (fun k => { b with state := .resolved resB k } ∈ t.offer.records) s t

/-! ### The configuration record's identifiers and ranges (R195) -/

def ClassField.code : ClassField → Nat
  | .accept => 0
  | .deadline => 1
  | .retry => 2
  | .attemptLimit => 3
  | .reofferLimit => 4
  | .affinityUse => 5
  | .report => 6

def SourceField.code : SourceField → Nat
  | .trigger => 0
  | .polarity => 1
  | .cls => 2
  | .level => 3
  | .dest => 4
  | .addr => 5
  | .startMasked => 6

def StationField.code : StationField → Nat
  | .tickFactor => 0
  | .blockExponent => 1
  | .affinityWeight => 2
  | .drainLimit => 3
  | .attentionThreshold => 4
  | .enableInbound => 5
  | .enableReport => 6
  | .enableStateChange => 7

/-- Group byte and field byte of an item (R195). -/
def ConfigItem.identifier : ConfigItem → Byte × Byte
  | .cls n f => (numByte n.toNat, numByte f.code)
  | .source n f => (numByte (32 + n.val), numByte f.code)
  | .station f => (48, numByte f.code)

/-- The lowest and the highest number the five value bytes may hold: for a data address, the presence byte 0 or 1 above four
bytes of address (R195). -/
def ConfigItem.limits : ConfigItem → Nat × Nat
  | .cls _ .accept => (0, 1)
  | .cls _ .deadline => (0, 4095)
  | .cls _ .retry => (0, 255)
  | .cls _ .attemptLimit => (1, 15)
  | .cls _ .reofferLimit => (0, 3)
  | .cls _ .affinityUse => (0, 1)
  | .cls _ .report => (0, 1)
  | .source _ .trigger => (0, 1)
  | .source _ .polarity => (0, 1)
  | .source _ .cls => (0, 31)
  | .source _ .level => (0, 7)
  | .source _ .dest => (0, 32767)
  | .source _ .addr => (0, 8589934591)
  | .source _ .startMasked => (0, 1)
  | .station .tickFactor => (1, 255)
  | .station .blockExponent => (8, 16)
  | .station .affinityWeight => (0, 15)
  | .station .drainLimit => (0, 4095)
  | .station .attentionThreshold => (1, 24)
  | .station .enableInbound => (0, 1)
  | .station .enableReport => (0, 1)
  | .station .enableStateChange => (0, 1)

def ConfigItem.inRange (item : ConfigItem) (v : BitVec 40) : Prop :=
  item.limits.1 ≤ v.toNat ∧ v.toNat ≤ item.limits.2

/-- What an item reads after `v` was written: a data address written absent reads 0 (R180). -/
def ConfigItem.readsBack (item : ConfigItem) (v : BitVec 40) : BitVec 40 :=
  match item with
  | .source _ .addr => if v.toNat < 4294967296 then 0 else v
  | .source _ _ => v
  | .cls _ _ => v
  | .station _ => v

/-- Every item of the record lies in the range given for it in R8, R63 and R46 (R47). -/
def Configuration.InRanges (c : Configuration) : Prop :=
  (∀ n, (c.classEntry n).deadline ≤ 4095 ∧ (c.classEntry n).retry ≤ 255 ∧ 1 ≤ (c.classEntry n).attemptLimit ∧
      (c.classEntry n).attemptLimit ≤ 15 ∧ (c.classEntry n).reofferLimit ≤ 3) ∧
    (∀ l, (c.sourceConfig l).cls ≤ 31 ∧ (c.sourceConfig l).level ≤ 7) ∧
    (1 ≤ c.station.tickFactor ∧ c.station.tickFactor ≤ 255 ∧ 8 ≤ c.station.blockExponent ∧
      c.station.blockExponent ≤ 16 ∧ c.station.affinityWeight ≤ 15 ∧ c.station.drainLimit ≤ 4095 ∧
      1 ≤ c.station.attentionThreshold ∧ c.station.attentionThreshold ≤ 24)

end Sys2Proof.Machine
end

