-- ==== Sys2Proof/WellFormed.lean ====
section
/-! DEFINITION. Which commands are well formed: the operands' types bound every field but two, whose rows name the values
the event exists for. -/

namespace Sys2Proof

/-- A command byte that names one of the 17 commands (R194, section 12.2). -/
def namesCommand (b : Byte) : Bool := decide (1 ≤ b.toNat ∧ b.toNat ≤ 17)

/-- A frame kind that section 2.3 gives: 000 to 100 (R21). -/
def kindReadable (k : BitVec 3) : Bool := decide (k.toNat ≤ 4)

/-- An UNKNOWN_COMMAND_BYTE names no command (R177), and an UNREADABLE_KIND is 101, 110 or 111 (R21). -/
def Instr.wellFormed : Instr → Bool
  | .resetAssert => true
  | .resetRelease _ => true
  | .configWrite _ _ _ => true
  | .configRead _ _ => true
  | .join => true
  | .drain => true
  | .restart => true
  | .submit _ _ _ _ _ => true
  | .cancel _ => true
  | .query _ => true
  | .take => true
  | .finish _ _ => true
  | .handBack _ => true
  | .report => true
  | .status => true
  | .mask _ _ => true
  | .touch _ => true
  | .forget => true
  | .roster => true
  | .unknownCommandByte b => !namesCommand b
  | .transactionDiscarded => true
  | .lineBecomesActive _ => true
  | .lineBecomesInactive _ => true
  | .deadlineTick => true
  | .backoffExpiry _ => true
  | .deadlineExpiry _ => true
  | .drainLimitExpiry => true
  | .synchronisationQuiet => true
  | .unreadableKind k => !kindReadable k
  | .frameStart => true
  | .offerValidated _ => true
  | .claimAsRead _ _ _ => true
  | .noticeReceived _ => true
  | .noticeSenderLearned _ => true
  | .joinAnswer _ => true
  | .joinReceived _ _ _ => true
  | .leaveReceived _ => true
  | .offerFrameEnd _ => true
  | .noticeFrameFate _ => true
  | .joinFrameEnd _ => true
  | .leaveFrameEnd _ => true
  | .checkFoundBad => true

end Sys2Proof
end

