-- ==== Sys2Proof/Certificates/Slice0/Obligations.lean ====
section
/-! DEFINITION. The statements for the provers, from the spec's numbered rules. Each is about one command or event, or about
the laws that every step keeps. `exec c s = .next t` says that the command completes, in `t`; a `t` written out in full, or as
an update of `s`, says that everything not named is unchanged. -/

open Sys2Proof Sys2Proof.Machine

/-! ### The queue of commands -/

/-- A step takes the command at the front of the queue and runs it on the state with the queue's rest. -/
def Obligations.StepRunsFrontCommand : Prop :=
  ∀ (c : Instr) (rest : List Instr) (s : State), s.pending = c :: rest → step s = exec c { s with pending := rest }

/-- Every command or event answers a next state, whatever the state: the part has no command that stops it (R176, R178). The
queue, the pin activity and the count of free values drawn are not the command's to change. -/
def Obligations.EveryCommandAnswersNext : Prop :=
  ∀ (c : Instr) (s : State), ∃ t, exec c s = .next t ∧ t.pending = s.pending ∧ t.inputs = s.inputs ∧
    t.freeDrawn = s.freeDrawn

/-- A step with no command waiting (MODEL'S CHOICE, logs 1, 3 and 4): the expiries due are queued, records' in list order, then
the drain limit's (R58, R85); with none due the next pin activity is taken; with none the block idles. A bit period counts
towards the tick at T × 1024 (R84), samples every line (R65), and reads DBD: the quiet and the bus idle are counted, and an
opening bit is found (R19, R20); inside a frame the bit is compared with the one driven (R23, R25, R27), and only a bidder's bit in
the claim field moves the claim (R29, R30). A receiver, a station that has lost contention among them (R23), hands over at the
points of R21, R24 and R26. A transmitter asks its own claim unit at the recessive void slot of its OFFER (R29), counts its frame
to the length it intended, and hands its fate over at the end (R27, R38), as a station that lost does at the end of the frame it
lost to, after that frame's own commands (log 3). FRAME_START follows on an idle bus (R39). SCS# and SCK begin, end and fill a
transaction (R174, R175; free values: log 15). -/
def Obligations.EmptyQueueIdles : Prop :=
  ∀ s : State, s.pending = [] →
    let due : List Instr :=
      if s.held then []
      else (s.offer.records.flatMap fun r => match r.state with
          | .backoff 0 => [.backoffExpiry r.tag]
          | .outstanding _ (some 0) => [.deadlineExpiry r.tag]
          | _ => []) ++
        if s.control.state = .draining ∧ s.control.drainTimer = some 0 then [.drainLimitExpiry] else []
    (due ≠ [] → step s = .next { s with pending := due }) ∧
    (due = [] → s.inputs = [] → step s = .next s) ∧
    (due = [] → ∀ (dbd : Bool) (src : BitVec 8) (rest : List PinInput), s.inputs = .bitPeriod dbd src :: rest →
      (s.held = true → step s = .next { s with inputs := rest }) ∧
      (s.held = false →
        let differs (l : Line) : Prop := src.getLsbD l.val ≠ (entryAt s l).takenHigh
        let run : Nat := if dbd then s.bus.recessiveRun + 1 else 0
        ∃ (t : State) (frame : List Instr), step s = .next t ∧
          t = { s with
            inputs := rest, pending := t.pending, sources := t.sources, bus := t.bus
            offer.tickCount := s.offer.tickCount + 1, claim.offerInHand := t.claim.offerInHand } ∧
          (∀ l, entryAt t l =
            { entryAt s l with oppositeSeen := decide (differs l) && !(entryAt s l).oppositeSeen }) ∧
          t.pending = frame ++
            (if s.control.config.station.tickFactor * 1024 ≤ s.offer.tickCount + 1 then [.deadlineTick] else []) ++
            ((List.finRange 8).flatMap fun l =>
              if differs l ∧ (entryAt s l).oppositeSeen = true then
                if src.getLsbD l.val = true ↔ (s.control.config.sourceConfig l).polarity = .high then
                  [.lineBecomesActive l]
                else [.lineBecomesInactive l]
              else []) ++
            (if s.control.state.sends = true ∧ t.bus.position = none ∧ t.bus.ownFrame = none ∧
                (if s.bus.synchronised then 8 else 110) ≤ t.bus.recessiveRun then [.frameStart] else []) ∧
          (s.control.state.receives = false → frame = [] ∧ t.bus = s.bus ∧ t.claim = s.claim) ∧
          (s.control.state.receives = true → s.bus.synchronised = false →
            frame = (if 110 ≤ run then [.synchronisationQuiet] else []) ∧ t.bus = { s.bus with recessiveRun := run } ∧
              t.claim = s.claim) ∧
          (s.control.state.receives = true → s.bus.synchronised = true → s.bus.position = none →
            frame = [] ∧ t.claim = s.claim ∧
              t.bus = if dbd = false ∧ 8 ≤ s.bus.recessiveRun then { s.bus with position := some [false], answer := .none }
                else { s.bus with recessiveRun := run }) ∧
          ∀ before : List Bool, s.control.state.receives = true → s.bus.synchronised = true → s.bus.position = some before →
            let bits : List Bool := before ++ [dbd]
            t.bus.synchronised = true ∧ t.bus.errorCount = s.bus.errorCount ∧
            (dbd = true ∨ drive s = false → t.claim = s.claim) ∧
            ((∀ lay, rxLayout bits = some lay → rxKindCode bits = 4 → lay.void < bits.length → lay.length ≤ bits.length) →
              t.claim = s.claim) ∧
            (∀ lay, rxLayout bits = some lay → rxKindCode bits = 4 → lay.void < bits.length → bits.length < lay.length →
              drive s = true → dbd = false →
              t.claim.offerInHand = s.claim.offerInHand.map fun h => { h with inClaim := false }) ∧
            let fate (f : OwnFrame) : List Instr :=
              let lay := f.frame.layout
              match f.candidate, f.status with
              | .offer _, .transmitting =>
                [.claimAsRead (rxBid bits lay) (rxClaimant bits lay) (!bitAt bits lay.length),
                 .offerFrameEnd (.clean (rxBid bits lay) (rxClaimant bits lay))]
              | .offer _, .lost => [.offerFrameEnd .lost]
              | .offer _, .broken => [.offerFrameEnd .broken]
              | .offer _, .voided => [.offerFrameEnd .void]
              | .notice _, .transmitting => [.noticeFrameFate (.clean (!bitAt bits 50) (!bitAt bits 51))]
              | .notice _, .lost => [.noticeFrameFate .lost]
              | .notice _, .broken => [.noticeFrameFate .broken]
              | .notice _, .voided => [.noticeFrameFate .void]
              | .join, .transmitting => [.joinFrameEnd (.clean (rxPresence bits) (!bitAt bits 45))]
              | .join, .lost => [.joinFrameEnd .lost]
              | .join, .broken => [.joinFrameEnd .broken]
              | .join, .voided => [.joinFrameEnd .void]
              | .leave, .transmitting => [.leaveFrameEnd .clean]
              | .leave, .lost => [.leaveFrameEnd .lost]
              | .leave, .broken => [.leaveFrameEnd .broken]
              | .leave, .voided => [.leaveFrameEnd .void]
            let goesOn : Prop := t.bus = { s.bus with ownFrame := t.bus.ownFrame, position := some bits }
            let isOver : Prop :=
              t.bus = { s.bus with ownFrame := t.bus.ownFrame, position := none, recessiveRun := 0, answer := .none }
            let receives (last : List Instr) : Prop :=
              (∀ lay, rxLayout bits = some lay → bits.length = lay.length → isOver) ∧
              ((∀ lay, rxLayout bits = some lay → bits.length ≠ lay.length) → goesOn) ∧
              (bits.length = 4 →
                frame = if 5 ≤ rxKindCode bits then [.unreadableKind (BitVec.ofNat 3 (rxKindCode bits))] else []) ∧
              (bits.length ≠ 4 → rxLayout bits = none → frame = []) ∧
              ∀ lay, rxLayout bits = some lay →
                (bits.length = lay.checkLast → frame = if checkGood bits lay = true then [] else [.checkFoundBad]) ∧
                (bits.length = lay.void → ¬ (checkGood bits lay = true ∧ bitAt bits lay.void = true) → frame = []) ∧
                (bits.length = lay.length → ¬ (checkGood bits lay = true ∧ bitAt bits lay.void = true) → frame = last) ∧
                (∀ f, checkGood bits lay = true → bitAt bits lay.void = true → rxFrame bits = some f →
                  (bits.length = lay.void →
                    frame = match f with
                      | .offer o => [.offerValidated o]
                      | .notice n => if n.target = s.control.number then [.noticeReceived n] else []
                      | .join sender _ => [.joinAnswer sender]
                      | .leave _ => []) ∧
                  (bits.length = lay.length →
                    frame = (match f with
                      | .offer _ => [.claimAsRead (rxBid bits lay) (rxClaimant bits lay) (!bitAt bits lay.length)]
                      | .notice n => [.noticeSenderLearned n.sender]
                      | .join sender resumed => [.joinReceived sender resumed (!bitAt bits lay.length)]
                      | .leave sender => [.leaveReceived sender]) ++ last)) ∧
                (bits.length ≠ 4 → bits.length ≠ lay.checkLast → bits.length ≠ lay.void → bits.length ≠ lay.length →
                  frame = [])
            (s.bus.ownFrame = none → t.bus.ownFrame = none ∧ receives []) ∧
            ∀ f, s.bus.ownFrame = some f →
              ∃ own : OwnFrame, t.bus.ownFrame = some own ∧
                own = { f with
                  status :=
                    if f.status ≠ .transmitting then f.status
                    else if bits.length ≤ 11 ∧ drive s = true ∧ dbd = false then .lost
                    else if (bits.length ≤ f.frame.layout.checkLast ∨
                        (f.frame.kind = .offer ∧ bits.length = f.frame.layout.length)) ∧ drive s ≠ dbd then .broken
                    else if bits.length = f.frame.layout.void ∧ dbd = false then .voided
                    else .transmitting } ∧
                (own.status = .lost → receives (fate own)) ∧
                (own.status ≠ .lost →
                  (bits.length = f.frame.layout.length → isOver ∧ frame = fate own) ∧
                  (bits.length ≠ f.frame.layout.length →
                    goesOn ∧
                      frame = match f.frame with
                        | .offer o =>
                          if own.status = .transmitting ∧ bits.length = f.frame.layout.void then [.offerValidated o] else []
                        | .notice _ => []
                        | .join _ _ => []
                        | .leave _ => [])))) ∧
    (due = [] → ∀ rest : List PinInput,
      (s.inputs = .scsFall :: rest →
        (s.held = true → step s = .next { s with inputs := rest, port.scsLow := true }) ∧
        (s.held = false → step s = .next { s with
          inputs := rest
          freeDrawn := s.freeDrawn + 1
          port := { scsLow := true, active := true, bits := [], bytes := [], taken := false, response := [], shifted := 0 } })) ∧
      (s.inputs = .scsRise :: rest → step s = .next { s with
        inputs := rest
        port := { s.port with scsLow := false, active := false }
        pending := if s.port.active = true ∧ s.port.taken = false then [.transactionDiscarded] else [] }) ∧
      ∀ sdi : Bool, s.inputs = .sck sdi :: rest →
        let bits : List Bool := s.port.bits ++ [sdi]
        let bytes : List Byte := s.port.bytes ++ [BitVec.ofNat 8 (bits.foldl (fun n b => 2 * n + b.toNat) 0)]
        (s.port.active = false → step s = .next { s with inputs := rest }) ∧
        (s.port.active = true → s.port.taken = true →
          step s = .next { s with inputs := rest, port.shifted := s.port.shifted + 1 }) ∧
        (s.port.active = true → s.port.taken = false → bits.length < 8 →
          step s = .next { s with inputs := rest, freeDrawn := s.freeDrawn + 1, port.bits := bits }) ∧
        (s.port.active = true → s.port.taken = false → 8 ≤ bits.length → decodePort bytes = none →
          step s = .next { s with
            inputs := rest, freeDrawn := s.freeDrawn + 1, port := { s.port with bits := [], bytes := bytes } }) ∧
        (∀ c, s.port.active = true → s.port.taken = false → 8 ≤ bits.length → decodePort bytes = some c →
          step s = .next { s with
            inputs := rest
            freeDrawn := s.freeDrawn + 1
            port := { s.port with bits := [], bytes := bytes, taken := true }
            pending := [c] }))

/-! ### Reset -/

/-- While RESET# is low the station is held, and no command or event but the reset's own has an effect (R44, R175; DEDUCED,
log 5). -/
def Obligations.HeldStationIgnoresCommands : Prop :=
  ∀ (c : Instr) (s : State), s.held = true → c ≠ .resetAssert → (∀ straps, c ≠ .resetRelease straps) → exec c s = .next s

/-- RESET_ASSERT holds the station: DBD undriven, ATN# and SDO released, its own frame abandoned with no change to the error
count, the offer in hand and the transaction gone (R16, R28, R44, R172, R175). The items keep their values until RESET# rises
(DEDUCED, log 22). -/
def Obligations.ResetAssertHoldsStation : Prop :=
  ∀ s : State, ∃ t, exec .resetAssert s = .next t ∧ t.held = true ∧ drive t = true ∧ atnLow t = false ∧ sdo t = none ∧
    t.bus = { s.bus with synchronised := false, position := none, recessiveRun := 0, ownFrame := none, answer := .none } ∧
    t.claim = { s.claim with offerInHand := none } ∧
    t.port = { scsLow := s.port.scsLow, active := false, bits := [], bytes := [], taken := false, response := [], shifted := 0 } ∧
    t.control = s.control ∧ t.sources = s.sources ∧ t.offer = s.offer ∧ t.work = s.work ∧ t.reports = s.reports

/-- RESET_RELEASE gives every item its reset value and takes the straps as the station number, whatever the state before: with
15 the station is in FAULT(NUMBER), with any other value in UNCONFIGURED (R8, R18, R43, R44, R46, R63, R64, R77, R80, R84,
R119, R140, R162). -/
def Obligations.ResetReleaseGivesResetValues : Prop :=
  ∀ (straps : StationNumber) (s : State), ∃ t, exec (.resetRelease straps) s = .next t ∧ t.held = false ∧
    t.control.state = (if straps = 15 then .faultNumber else .unconfigured) ∧ t.control.number = straps ∧
    (∀ n, t.control.config.classEntry n = { accept := false, deadline := 0, retry := 1, attemptLimit := 1, reofferLimit := 0,
                                            affinityUse := false, report := true }) ∧
    (∀ l, t.control.config.sourceConfig l = { trigger := .edge, polarity := .high, cls := 0, level := 7, dest := 0,
                                              addr := none, startMasked := true }) ∧
    t.control.config.station = { tickFactor := 1, blockExponent := 12, affinityWeight := 4, drainLimit := 0,
                                 attentionThreshold := 1, enableInbound := false, enableReport := false,
                                 enableStateChange := false } ∧
    t.control.locked = false ∧ t.control.roster = 0 ∧ t.control.joinCandidate = none ∧ t.control.leaveCandidate = false ∧
    t.control.drainTimer = none ∧ t.control.drainPassed = false ∧ t.control.stateChanged = false ∧
    t.bus = { synchronised := false, position := none, recessiveRun := 0, ownFrame := none, errorCount := 0,
              answer := .none } ∧
    (∀ l, entryAt t l = { state := .quiet, masked := true, hold := false, takenHigh := false, oppositeSeen := false }) ∧
    t.offer = { records := [], tagCounter := 0, tickCount := 0 } ∧
    t.claim = { affinity := [], claimCounter := 0, offerInHand := none } ∧
    t.work.inbound = [] ∧ (∀ i, t.work.slots.get i = none) ∧ t.work.noticeCounter = 0 ∧
    t.reports = { queue := [], resolutionCounter := 0 } ∧ atnLow t = false

/-- The state after reset obeys every law of a sound station. -/
def Obligations.ResetStateIsSound : Prop := ∀ straps : StationNumber, (State.afterReset straps).Sound

/-! ### Configuration -/

/-- CONFIG_WRITE: FAULT(NUMBER), lock, identifier and range are checked in this order; a value in range is written, reads
back as R180 gives it, and changes no other item (R46, R179, R195). An identifier names an item exactly as the table of
section 12.3 lists it. -/
def Obligations.ConfigWriteChecksAndWrites : Prop :=
  (∀ group field item, configItem group field = some item ↔ item.identifier = (group, field)) ∧
    ∀ (group field : Byte) (v : BitVec 40) (s : State), s.held = false →
      (s.control.state = .faultNumber → exec (.configWrite group field v) s = .next (answer .state s)) ∧
      (s.control.state ≠ .faultNumber → s.control.locked = true →
        exec (.configWrite group field v) s = .next (answer .locked s)) ∧
      (s.control.state ≠ .faultNumber → s.control.locked = false → configItem group field = none →
        exec (.configWrite group field v) s = .next (answer .param s)) ∧
      (∀ item, s.control.state ≠ .faultNumber → s.control.locked = false → configItem group field = some item →
        ¬ item.inRange v → exec (.configWrite group field v) s = .next (answer .param s)) ∧
      (∀ item, s.control.state ≠ .faultNumber → s.control.locked = false → configItem group field = some item →
        item.inRange v →
        ∃ c : Configuration, exec (.configWrite group field v) s = .next (answer .ok { s with control.config := c }) ∧
          c.read item = item.readsBack v ∧ ∀ other, other ≠ item → c.read other = s.control.config.read other)

/-- CONFIG_READ is taken in every state, changes nothing but the response, and returns the item in five bytes, most
significant first, or PARAM for an identifier that names none (R180, R194). -/
def Obligations.ConfigReadReturnsItem : Prop :=
  ∀ (group field : Byte) (s : State), s.held = false →
    (configItem group field = none → exec (.configRead group field) s = .next (answer .param s)) ∧
    (∀ item, configItem group field = some item →
      ∃ bytes, exec (.configRead group field) s = .next (respond .ok bytes s) ∧ bytes.length = 5 ∧
        ofBytes bytes = (s.control.config.read item).toNat)

/-! ### Station commands -/

/-- JOIN by the station state (R48, R181): refused in FAULT(NUMBER), JOINING, ONLINE and DRAINING; from UNCONFIGURED PARAM for
a record with an item out of its range, else the record is locked and the start-masked values are applied (R47, R76); from
OFFLINE and FAULT(CLASH) with resumed 0, from MUTED with the flag kept for it. The error count is 0, the bus unit
unsynchronised, the JOIN candidate present; an offer in hand ends with the synchronisation (DEDUCED, log 13: R119 keeps it to
the end of the frame); and nothing else has changed. -/
def Obligations.JoinByState : Prop :=
  ∀ s : State, s.held = false →
    (s.control.state = .faultNumber ∨ s.control.state = .joining ∨ s.control.state = .online ∨ s.control.state = .draining →
      exec .join s = .next (answer .state s)) ∧
    (s.control.state = .unconfigured → ¬ s.control.config.InRanges → exec .join s = .next (answer .param s)) ∧
    (s.control.state = .unconfigured → s.control.config.InRanges →
      ∃ t, exec .join s = .next t ∧
        t.control = { s.control with state := .joining, locked := true, joinCandidate := some false, mutedResumed := false } ∧
        (∀ l, entryAt t l = { entryAt s l with masked := (s.control.config.sourceConfig l).startMasked }) ∧
        t = { answer .ok s with
              control := t.control
              sources := t.sources
              bus := { s.bus with synchronised := false, position := none, recessiveRun := 0, errorCount := 0, answer := .none }
              claim.offerInHand := none }) ∧
    (s.control.state = .offline ∨ s.control.state = .faultClash →
      exec .join s = .next { answer .ok s with
        control := { s.control with state := .joining, joinCandidate := some false, mutedResumed := false }
        bus := { s.bus with synchronised := false, position := none, recessiveRun := 0, errorCount := 0, answer := .none }
        claim.offerInHand := none }) ∧
    (s.control.state = .muted →
      exec .join s = .next { answer .ok s with
        control := { s.control with
                     state := .joining, joinCandidate := some s.control.mutedResumed, mutedResumed := false }
        bus := { s.bus with synchronised := false, position := none, recessiveRun := 0, errorCount := 0, answer := .none }
        claim.offerInHand := none })

/-- DRAIN is taken in ONLINE alone (R55). WAITING and BACKOFF records are resolved WITHDRAWN in list order (R163), and OFFERING, RESOLVED and other
stations' OUTSTANDING records stay (R97); WAITING inbound records become RETURNING with ages in queue order (R150, R151); every
latched edge goes, masks and holds stay (R74); the drain-limit timer starts where the limit is not 0, or is stopped with the
LEAVE candidate present where the drain is complete at once (R55, R56). What becomes of its own copies and
self-claimed records is in `SelfNoticeAnsweredAtOnce`. -/
def Obligations.DrainByState : Prop :=
  ∀ s : State, s.held = false →
    (s.control.state ≠ .online → exec .drain s = .next (answer .state s)) ∧
    (s.control.state = .online → s.ListsSound → s.WorkSound →
      ∃ t, exec .drain s = .next t ∧ t.port = (answer .ok s).port ∧ t.bus = s.bus ∧ t.claim = s.claim ∧
        t.work.slots = s.work.slots ∧ t.held = s.held ∧ t.offer.tagCounter = s.offer.tagCounter ∧
        t.offer.tickCount = s.offer.tickCount ∧
        t.control = drainTested { s with
          control := { s.control with
            state := .draining
            drainTimer := if s.control.config.station.drainLimit = 0 then none else some s.control.config.station.drainLimit
            drainPassed := false } } t ∧
        (∀ r ∈ t.offer.records, r.state ≠ .waiting ∧ ∀ n, r.state ≠ .backoff n) ∧
        (∀ r ∈ s.offer.records, r.state = .waiting ∨ (∃ n, r.state = .backoff n) →
          ((classOf s r.cls).report = true →
            recordReport r .withdrawn ∈ t.reports.queue ∨
              ∃ n, { r with state := .resolved .withdrawn n } ∈ t.offer.records) ∧
          ((classOf s r.cls).report = false → ∀ x ∈ t.offer.records, x.tag ≠ r.tag)) ∧
        EndedInListOrder (fun r res => res = .withdrawn ∧ (r.state = .waiting ∨ ∃ n, r.state = .backoff n)) s t ∧
        (∀ r ∈ s.offer.records, (∃ c, r.state = .offering c) ∨ (∃ res n, r.state = .resolved res n) ∨
          (∃ c timer, r.state = .outstanding c timer ∧ c ≠ s.control.number) → r ∈ t.offer.records) ∧
        (∀ r ∈ t.work.inbound, r.state ≠ .waiting) ∧
        (∀ r ∈ s.work.inbound, r.state ≠ .waiting → r ∈ t.work.inbound) ∧
        (∀ r ∈ s.work.inbound, r.state = .waiting → r.originator ≠ s.control.number →
          ∃ age, s.work.noticeCounter ≤ age ∧ { r with state := .returning age 0 none } ∈ t.work.inbound) ∧
        (∀ a b, [a, b].Sublist s.work.inbound → a.state = .waiting → b.state = .waiting →
          a.originator ≠ s.control.number → b.originator ≠ s.control.number →
          ∃ x y, x < y ∧ { a with state := .returning x 0 none } ∈ t.work.inbound ∧
            { b with state := .returning y 0 none } ∈ t.work.inbound) ∧
        ∀ l, (entryAt t l).state ≠ .latched ∧ (∀ tag, (entryAt t l).state ≠ .live tag true) ∧
          (entryAt t l).masked = (entryAt s l).masked ∧ (entryAt t l).hold = (entryAt s l).hold ∧
          (entryAt t l).takenHigh = (entryAt s l).takenHigh)

/-- RESTART is refused in UNCONFIGURED and FAULT(NUMBER); elsewhere it abandons any frame, empties the collections, the report
queue, the affinity table and the roster, sets the counters to 0, restores the start-masked values and enters JOINING with
resumed 0. The record, its lock, the station number, the taken levels and the state-changed flag are kept (R28, R45, R61,
R64, R76, R77, R80, R84, R119, R140, R160, R162, R170). -/
def Obligations.RestartByState : Prop :=
  ∀ s : State, s.held = false →
    (s.control.state = .unconfigured ∨ s.control.state = .faultNumber → exec .restart s = .next (answer .state s)) ∧
    (s.control.state ≠ .unconfigured → s.control.state ≠ .faultNumber →
      ∃ t, exec .restart s = .next t ∧ t.port = (answer .ok s).port ∧ t.held = s.held ∧
        t.bus = { synchronised := false, position := none, recessiveRun := 0, ownFrame := none, errorCount := 0,
                  answer := .none } ∧
        t.control = { s.control with
          state := .joining, roster := 0, joinCandidate := some false, mutedResumed := false, leaveCandidate := false,
          drainTimer := none, drainPassed := false } ∧
        (∀ l, entryAt t l = { state := .quiet, masked := (s.control.config.sourceConfig l).startMasked, hold := false,
                              takenHigh := (entryAt s l).takenHigh, oppositeSeen := (entryAt s l).oppositeSeen }) ∧
        t.offer = { records := [], tagCounter := 0, tickCount := 0 } ∧
        t.claim = { affinity := [], claimCounter := 0, offerInHand := none } ∧
        t.work.inbound = [] ∧ (∀ i, t.work.slots.get i = none) ∧ t.work.noticeCounter = 0 ∧
        t.reports = { queue := [], resolutionCounter := 0 } ∧ drive t = true)

/-! ### The originator's commands -/

/-- SUBMIT checks state, parameters and room in this order (R82, R194) and makes the record R81 gives at the end of the list,
with the first free tag, which the response returns (R80, R182); with no station in common with the roster it is resolved
NO-PEER in the same event (R83, R93). -/
def Obligations.SubmitChecksAndMakesRecord : Prop :=
  ∀ (cls level flag : Byte) (set : BitVec 16) (addr : Address) (s : State), s.held = false →
    (s.control.state ≠ .online → s.control.state ≠ .muted →
      exec (.submit cls level flag set addr) s = .next (answer .state s)) ∧
    (s.control.state = .online ∨ s.control.state = .muted →
      ¬ (cls.toNat ≤ 31 ∧ level.toNat ≤ 7 ∧ flag.toNat ≤ 1 ∧ set.toNat < 32768) →
      exec (.submit cls level flag set addr) s = .next (answer .param s)) ∧
    (s.control.state = .online ∨ s.control.state = .muted →
      cls.toNat ≤ 31 ∧ level.toNat ≤ 7 ∧ flag.toNat ≤ 1 ∧ set.toNat < 32768 → 32 ≤ s.offer.records.length →
      exec (.submit cls level flag set addr) s = .next (answer .full s)) ∧
    (s.control.state = .online ∨ s.control.state = .muted →
      cls.toNat ≤ 31 ∧ level.toNat ≤ 7 ∧ flag.toNat ≤ 1 ∧ set.toNat < 32768 → s.offer.records.length < 32 →
      s.ServedSound →
      ∃ t r, exec (.submit cls level flag set addr) s = .next t ∧ FirstFreeTag r.tag s ∧
        r = { tag := r.tag, generation := 0, source := .soft, cls := BitVec.ofNat 5 cls.toNat,
              level := BitVec.ofNat 3 level.toNat, dest := BitVec.ofNat 15 set.toNat,
              addr := if flag = 0 then none else some addr, attempts := 0, state := .waiting } ∧
        MadeIn r s t ∧ t.port = (respond .ok [r.tag] s).port ∧ OnlyTickets { s with port := t.port } t ∧
        t.sources = s.sources)

/-- CANCEL by the state of the record that holds the tag (R95, R96, R183). -/
def Obligations.CancelByRecordState : Prop :=
  ∀ (tag : Tag) (s : State), s.held = false →
    (s.control.state = .unconfigured ∨ s.control.state = .faultNumber → exec (.cancel tag) s = .next (answer .state s)) ∧
    (s.control.state ≠ .unconfigured → s.control.state ≠ .faultNumber → (∀ r ∈ s.offer.records, r.tag ≠ tag) →
      exec (.cancel tag) s = .next (answer .unknown s)) ∧
    (∀ r ∈ s.offer.records, r.tag = tag → s.ListsSound → s.control.state ≠ .unconfigured →
      s.control.state ≠ .faultNumber →
      ((∃ res n, r.state = .resolved res n) → exec (.cancel tag) s = .next (answer .state s)) ∧
      ((∃ c, r.state = .offering c) →
        exec (.cancel tag) s = .next { answer .ok s with
          offer.records := s.offer.records.map fun x => if x.tag = tag then { r with state := .offering true } else x }) ∧
      (r.state = .waiting ∨ (∃ n, r.state = .backoff n) ∨ (∃ c timer, r.state = .outstanding c timer) →
        ∃ t, exec (.cancel tag) s = .next t ∧ ResolvedIn r .cancelled s t ∧ TicketsThenDrain s t ∧
          t.port = (answer .ok s).port))

/-- QUERY is taken in every state, changes nothing but the response, and returns the record's state, generation, attempts used
and, in OUTSTANDING alone, its claimant (R184, R194). -/
def Obligations.QueryReadsRecord : Prop :=
  ∀ (tag : Tag) (s : State), s.held = false →
    ((∀ r ∈ s.offer.records, r.tag ≠ tag) → exec (.query tag) s = .next (answer .unknown s)) ∧
    (∀ r ∈ s.offer.records, r.tag = tag → s.ListsSound →
      exec (.query tag) s = .next (respond .ok
        [match r.state with
          | .waiting => 0
          | .backoff _ => 1
          | .offering _ => 2
          | .outstanding _ _ => 3
          | .resolved _ _ => 4,
         BitVec.ofNat 8 r.generation.toNat, BitVec.ofNat 8 r.attempts,
         match r.state with
          | .outstanding c _ => BitVec.ofNat 8 c.toNat
          | .waiting => 255
          | .backoff _ => 255
          | .offering _ => 255
          | .resolved _ _ => 255] s))

/-! ### The claimant's commands -/

/-- TAKE checks state, slots and queue in this order (R145, R185) and moves the first WAITING record in queue order into the
lowest empty slot as TAKEN, and its block, if it has one, to the front of the affinity table (R136, R146). -/
def Obligations.TakeMovesFirstWaiting : Prop :=
  ∀ s : State, s.held = false →
    (s.control.state.receives = false → exec .take s = .next (answer .state s)) ∧
    (s.control.state.receives = true → (∀ i, s.work.slots.get i ≠ none) → exec .take s = .next (answer .full s)) ∧
    (s.control.state.receives = true → (∃ i, s.work.slots.get i = none) → (∀ r ∈ s.work.inbound, r.state ≠ .waiting) →
      exec .take s = .next (answer .empty s)) ∧
    (∀ (i : Fin 8) (before : List InRecord) (r : InRecord) (after : List InRecord), s.control.state.receives = true →
      s.work.slots.get i = none → (∀ j, j < i → s.work.slots.get j ≠ none) → s.work.inbound = before ++ r :: after →
      (∀ x ∈ before, x.state ≠ .waiting) → r.state = .waiting → s.WorkSound →
      exec .take s = .next { respond .ok
          ([BitVec.ofNat 8 i.val, BitVec.ofNat 8 r.originator.toNat, r.tag, BitVec.ofNat 8 r.generation.toNat,
            BitVec.ofNat 8 r.cls.toNat, BitVec.ofNat 8 r.level.toNat] ++ addrBytes r.addr) s with
        work := { s.work with
          inbound := before ++ after
          slots := s.work.slots.set i (some
            { originator := r.originator, tag := r.tag, generation := r.generation, cls := r.cls, state := .taken }) }
        claim.affinity := match r.addr with
          | some a => useBlock (a.toNat / 2 ^ s.control.config.station.blockExponent) s.claim.affinity
          | none => s.claim.affinity })

/-- FINISH by the slot's entry (R148, R186): a TAKEN entry becomes NOTIFYING with a DONE, the outcome code, the next notice age
and no attempts; load, queue and affinity table are unchanged. A notice to the station itself in ONLINE or DRAINING is in
`SelfNoticeAnsweredAtOnce`. -/
def Obligations.FinishByEntryState : Prop :=
  ∀ (slot outcome : Byte) (s : State), s.held = false →
    (s.control.state.receives = false → exec (.finish slot outcome) s = .next (answer .state s)) ∧
    (s.control.state.receives = true → 7 < slot.toNat ∨ 3 < outcome.toNat →
      exec (.finish slot outcome) s = .next (answer .param s)) ∧
    (∀ i : Fin 8, s.control.state.receives = true → slot.toNat = i.val → outcome.toNat ≤ 3 →
      (s.work.slots.get i = none → exec (.finish slot outcome) s = .next (answer .unknown s)) ∧
      (∀ e, s.work.slots.get i = some e → e.state ≠ .taken → exec (.finish slot outcome) s = .next (answer .state s)) ∧
      (∀ e, s.work.slots.get i = some e → e.state = .taken →
        e.originator ≠ s.control.number ∨ s.control.state = .joining ∨ s.control.state = .muted →
        exec (.finish slot outcome) s = .next { answer .ok s with
          work := { s.work with
            slots := s.work.slots.set i (some
              { e with state := .notifying (.done (BitVec.ofNat 2 outcome.toNat)) s.work.noticeCounter 0 none })
            noticeCounter := s.work.noticeCounter + 1 } }))

/-- HAND_BACK by the slot's entry (R149, R186): as FINISH, with a RETURN and no outcome code. -/
def Obligations.HandBackByEntryState : Prop :=
  ∀ (slot : Byte) (s : State), s.held = false →
    (s.control.state.receives = false → exec (.handBack slot) s = .next (answer .state s)) ∧
    (s.control.state.receives = true → 7 < slot.toNat → exec (.handBack slot) s = .next (answer .param s)) ∧
    (∀ i : Fin 8, s.control.state.receives = true → slot.toNat = i.val →
      (s.work.slots.get i = none → exec (.handBack slot) s = .next (answer .unknown s)) ∧
      (∀ e, s.work.slots.get i = some e → e.state ≠ .taken → exec (.handBack slot) s = .next (answer .state s)) ∧
      (∀ e, s.work.slots.get i = some e → e.state = .taken →
        e.originator ≠ s.control.number ∨ s.control.state = .joining ∨ s.control.state = .muted →
        exec (.handBack slot) s = .next { answer .ok s with
          work := { s.work with
            slots := s.work.slots.set i (some { e with state := .notifying .ret s.work.noticeCounter 0 none })
            noticeCounter := s.work.noticeCounter + 1 } }))

/-- A FINISH or HAND_BACK of the station's own ticket in ONLINE or DRAINING is answered in the command's event (R106, R157): by
the test of R100 it is accepted, the slot is freed without a report and the record ends as R102 to R104 give it; or it is
stale, and the copy ends STALE (R158). A DRAIN answers in its event the RETURN of every WAITING inbound record of the station's
own (R106, R151, R157): accepted, the copy is freed and its record is WITHDRAWN (R104); stale, the copy ends STALE, with its
report placed or, the queue full, waiting. These ends take their numbers in queue order, after those of the records withdrawn (R106,
R163). A self-claimed record that no such copy matches stays OUTSTANDING. -/
def Obligations.SelfNoticeAnsweredAtOnce : Prop :=
  (∀ (c : Instr) (kind : NoticeKind) (slot : Byte) (i : Fin 8) (e : ServiceEntry) (s : State), s.held = false →
    slot.toNat = i.val →
    ((∃ outcome : Byte, outcome.toNat ≤ 3 ∧ c = .finish slot outcome ∧ kind = .done (BitVec.ofNat 2 outcome.toNat)) ∨
      c = .handBack slot ∧ kind = .ret) →
    s.control.state = .online ∨ s.control.state = .draining → s.work.slots.get i = some e → e.state = .taken →
    e.originator = s.control.number → s.ListsSound → s.WorkSound →
    (∀ r ∈ s.offer.records, r.tag = e.tag → r.generation = e.generation →
      (∃ timer, r.state = .outstanding s.control.number timer) →
      ∃ t, exec c s = .next t ∧ t.port = (answer .ok s).port ∧
        t.work = { s.work with slots := s.work.slots.set i none, noticeCounter := s.work.noticeCounter + 1 } ∧
        OnlyTickets { s with control := t.control, port := t.port, work := t.work } t ∧ t.control = drainTested s t ∧
        (∀ outcome, kind = .done outcome → ResolvedIn r (.completed outcome s.control.number) s t) ∧
        (kind = .ret → s.control.state = .draining → ResolvedIn r .withdrawn s t) ∧
        (kind = .ret → s.control.state = .online → r.attempts + 1 < (classOf s r.cls).attemptLimit →
          t.offer.records = s.offer.records.map fun x =>
            if x.tag = r.tag then { r with attempts := r.attempts + 1, state := .waiting } else x) ∧
        (kind = .ret → s.control.state = .online → (classOf s r.cls).attemptLimit ≤ r.attempts + 1 →
          ResolvedIn { r with attempts := r.attempts + 1 } (.refused (r.attempts + 1)) s t)) ∧
    ((∀ r ∈ s.offer.records, r.tag = e.tag → r.generation = e.generation →
        ∀ timer, r.state ≠ .outstanding s.control.number timer) →
      (s.reports.queue.length < 16 →
        ∃ t, exec c s = .next { answer .ok s with
          control := t
          work := { s.work with slots := s.work.slots.set i none, noticeCounter := s.work.noticeCounter + 1 }
          reports := { queue := s.reports.queue ++ [{ kind := .stale, tag := e.tag, cls := e.cls, source := none,
                                                      generation := e.generation, peer := some s.control.number,
                                                      outcome := none, attempts := none }]
                       resolutionCounter := s.reports.resolutionCounter + 1 } } ∧
          t = drainTested s { s with work.slots := s.work.slots.set i none }) ∧
      (16 ≤ s.reports.queue.length →
        exec c s = .next { answer .ok s with
          work := { s.work with
            slots := s.work.slots.set i (some { e with
              state := .notifying kind s.work.noticeCounter 0 (some ⟨.stale, s.reports.resolutionCounter⟩) })
            noticeCounter := s.work.noticeCounter + 1 }
          reports.resolutionCounter := s.reports.resolutionCounter + 1 }))) ∧
  ∀ s : State, s.held = false → s.control.state = .online → s.ListsSound → s.WorkSound →
    let own (r : OutRecord) (q : InRecord) : Prop :=
      r.tag = q.tag ∧ r.generation = q.generation ∧ ∃ timer, r.state = .outstanding s.control.number timer
    ∃ t, exec .drain s = .next t ∧
      (∀ q ∈ s.work.inbound, q.state = .waiting → q.originator = s.control.number →
        let freed : Prop := ∀ x ∈ t.work.inbound, ¬ (x.originator = s.control.number ∧ x.tag = q.tag)
        (∀ r ∈ s.offer.records, own r q → freed ∧
          ((classOf s r.cls).report = true →
            recordReport r .withdrawn ∈ t.reports.queue ∨
              16 ≤ t.reports.queue.length ∧ ∃ n, { r with state := .resolved .withdrawn n } ∈ t.offer.records) ∧
          ((classOf s r.cls).report = false → ∀ x ∈ t.offer.records, x.tag ≠ r.tag)) ∧
        ((∀ r ∈ s.offer.records, ¬ own r q) →
          (freed ∧ ({ kind := .stale, tag := q.tag, cls := q.cls, source := none, generation := q.generation,
                      peer := some s.control.number, outcome := none, attempts := none } : Report) ∈ t.reports.queue) ∨
          (16 ≤ t.reports.queue.length ∧ ∃ age n, s.work.noticeCounter ≤ age ∧
            { q with state := .returning age 0 (some ⟨.stale, n⟩) } ∈ t.work.inbound))) ∧
      (∀ r ∈ s.offer.records, (∃ timer, r.state = .outstanding s.control.number timer) →
        (∀ q ∈ s.work.inbound, q.state = .waiting → q.originator = s.control.number → ¬ own r q) → r ∈ t.offer.records) ∧
      let ends (q : InRecord) (report : Report) (waits : Nat → Prop) : Prop :=
        q.state = .waiting ∧ q.originator = s.control.number ∧
          ((∃ r ∈ s.offer.records, own r q ∧ (classOf s r.cls).report = true ∧ report = recordReport r .withdrawn ∧
              waits = fun k => { r with state := .resolved .withdrawn k } ∈ t.offer.records) ∨
            ((∀ r ∈ s.offer.records, ¬ own r q) ∧
              report = { kind := .stale, tag := q.tag, cls := q.cls, source := none, generation := q.generation,
                         peer := some s.control.number, outcome := none, attempts := none } ∧
              waits = fun k => ∃ age, { q with state := .returning age 0 (some ⟨.stale, k⟩) } ∈ t.work.inbound))
      (∀ a q report waits, a ∈ s.offer.records → a.state = .waiting ∨ (∃ n, a.state = .backoff n) →
        (classOf s a.cls).report = true → q ∈ s.work.inbound → ends q report waits →
        TakenBefore (recordReport a .withdrawn) (fun k => { a with state := .resolved .withdrawn k } ∈ t.offer.records)
          report waits s t) ∧
      ∀ p q reportP waitsP reportQ waitsQ, [p, q].Sublist s.work.inbound → ends p reportP waitsP → ends q reportQ waitsQ →
        TakenBefore reportP waitsP reportQ waitsQ s t

/-! ### Reports and reading -/

/-- REPORT is taken in every state: EMPTY, or the oldest report is removed and returned in its eight bytes, 255 for a field it
does not carry (R187, R194), and the waiting item with the lowest resolution number, if any, is placed at the back of the queue
and disposed of (R166, R167, R168). The fields each kind of report carries are those of R164: for a record (R117), and for a
copy (R158). -/
def Obligations.ReportReturnsOldest : Prop :=
  let bytes (r : Report) : List Byte :=
    [match r.kind with
      | .completed => 0
      | .refused => 1
      | .lapsed => 2
      | .cancelled => 3
      | .noPeer => 4
      | .withdrawn => 5
      | .stale => 6
      | .undelivered => 7,
     r.tag, BitVec.ofNat 8 r.cls.toNat,
     match r.source with
      | some (.line l) => BitVec.ofNat 8 l.val
      | some .soft => 8
      | none => 255,
     BitVec.ofNat 8 r.generation.toNat,
     match r.peer with
      | some p => BitVec.ofNat 8 p.toNat
      | none => 255,
     match r.outcome with
      | some c => BitVec.ofNat 8 c.toNat
      | none => 255,
     match r.attempts with
      | some n => BitVec.ofNat 8 n
      | none => 255]
  (∀ (x : OutRecord) (res : Resolution),
    let carries (kind : ReportKind) (peer : Option StationNumber) (outcome : Option OutcomeCode) (attempts : Option Nat) :
        Report :=
      { kind := kind, tag := x.tag, cls := x.cls, source := some x.source, generation := x.generation, peer := peer,
        outcome := outcome, attempts := attempts }
    recordReport x res = match res with
      | .completed outcome claimant => carries .completed (some claimant) (some outcome) none
      | .refused attempts => carries .refused none none (some attempts)
      | .lapsed attempts => carries .lapsed none none (some attempts)
      | .cancelled => carries .cancelled none none none
      | .noPeer => carries .noPeer none none none
      | .withdrawn => carries .withdrawn none none none) ∧
  ∀ s : State, s.held = false →
    (s.reports.queue = [] → exec .report s = .next (answer .empty s)) ∧
    (∀ r rest, s.reports.queue = r :: rest → waitingItems s = [] → s.DrainSound →
      exec .report s = .next { respond .ok (bytes r) s with reports.queue := rest }) ∧
    (∀ r rest n item, s.reports.queue = r :: rest → s.ListsSound → (n, item) ∈ waitingItems s →
      (∀ m other, (m, other) ∈ waitingItems s → (m, other) ≠ (n, item) → n < m) →
      ∃ t, exec .report s = .next t ∧ t.port = (respond .ok (bytes r) s).port ∧ t.bus = s.bus ∧ t.claim = s.claim ∧
        t.control = drainTested s t ∧
        match item with
        | .record x res =>
          rest ++ [recordReport x res] <+: t.reports.queue ∧ dropRecord x.tag s.offer.records <+: t.offer.records ∧
            t.work = s.work
        | .copy notice how =>
          t.reports.queue = rest ++
            [{ kind := match how with
                | .stale => .stale
                | .undelivered => .undelivered
               tag := notice.tag, cls := notice.cls, source := none, generation := notice.generation,
               peer := some notice.originator, outcome := none, attempts := none }] ∧ t.offer = s.offer ∧ t.sources = s.sources ∧
            t.work = (freeCopy notice.ref s).work)

/-- STATUS and ROSTER are taken in every state. STATUS returns the nine figures and then clears the state-changed flag (R62,
R188); ROSTER returns the set in two bytes, bit 15 reading 0, and changes nothing (R189, R194). -/
def Obligations.StatusAndRosterRead : Prop :=
  ∀ s : State, s.held = false →
    exec .status s = .next { respond .ok
        [match s.control.state with
          | .unconfigured => 0
          | .joining => 1
          | .online => 2
          | .draining => 3
          | .offline => 4
          | .muted => 5
          | .faultNumber => 6
          | .faultClash => 6,
         if s.control.state = .faultNumber then 1 else if s.control.state = .faultClash then 2 else 0,
         BitVec.ofNat 8 s.control.number.toNat, BitVec.ofNat 8 s.bus.errorCount,
         BitVec.ofNat 8 s.offer.records.length, BitVec.ofNat 8 s.work.inbound.length,
         BitVec.ofNat 8 (((List.finRange 8).filter fun i => (s.work.slots.get i).isSome).length),
         BitVec.ofNat 8 s.reports.queue.length, if s.control.stateChanged then 1 else 0] s with
      control.stateChanged := false } ∧
    ∃ high low : Byte, exec .roster s = .next (respond .ok [high, low] s) ∧
      high ++ low = BitVec.setWidth 16 s.control.roster

/-! ### Local tables -/

/-- MASK checks state, entry and value in this order (R73, R190). Setting discards a latched edge and leaves a live record.
Clearing clears the hold; a level entry that is QUIET with its line active then makes a record, in ONLINE or MUTED with a
place free (R66, R73). -/
def Obligations.MaskSetAndCleared : Prop :=
  ∀ (entry value : Byte) (s : State), s.held = false →
    (s.control.state = .unconfigured ∨ s.control.state = .faultNumber →
      exec (.mask entry value) s = .next (answer .state s)) ∧
    (s.control.state ≠ .unconfigured → s.control.state ≠ .faultNumber → 7 < entry.toNat ∨ 1 < value.toNat →
      exec (.mask entry value) s = .next (answer .param s)) ∧
    (∀ l : Line, s.control.state ≠ .unconfigured → s.control.state ≠ .faultNumber → entry.toNat = l.val →
      (value = 1 →
        exec (.mask entry value) s = .next { answer .ok s with
          sources := s.sources.set l { entryAt s l with
            masked := true
            state := match (entryAt s l).state with
              | .quiet => .quiet
              | .latched => .quiet
              | .live tag _ => .live tag false } }) ∧
      (value = 0 → s.ServedSound →
        ((s.control.config.sourceConfig l).trigger = .edge ∨ (s.control.state ≠ .online ∧ s.control.state ≠ .muted) ∨
            (entryAt s l).state ≠ .quiet ∨ lineActive s l = false ∨ 32 ≤ s.offer.records.length →
          exec (.mask entry value) s = .next { answer .ok s with
            sources := s.sources.set l { entryAt s l with masked := false, hold := false } }) ∧
        ((s.control.config.sourceConfig l).trigger = .level → s.control.state = .online ∨ s.control.state = .muted →
          (entryAt s l).state = .quiet → lineActive s l = true → s.offer.records.length < 32 →
          ∃ t tag, exec (.mask entry value) s = .next t ∧ FirstFreeTag tag s ∧ MadeIn (lineRecord l tag s) s t ∧
            t.port = (answer .ok s).port ∧ t.bus = s.bus ∧ t.control = s.control ∧ t.claim = s.claim ∧ t.work = s.work ∧
            (∀ k, k ≠ l → entryAt t k = entryAt s k) ∧ (entryAt t l).masked = false ∧
            (setsMeet (s.control.config.sourceConfig l).dest s.control.roster = true →
              entryAt t l = { entryAt s l with masked := false, hold := false, state := .live tag false }) ∧
            (setsMeet (s.control.config.sourceConfig l).dest s.control.roster = false → (entryAt t l).hold = true))))

/-- TOUCH uses the address's block: it moves to the front of the table from wherever it stood, or is put there, in a full table
in place of the last. FORGET empties the table. Both answer STATE with no effect in UNCONFIGURED and FAULT(NUMBER) and OK
elsewhere, and change nothing but the table; after FORGET every bid for an offer with an address in a class that uses affinity
carries the penalty W (R134, R135, R137, R138, R190). -/
def Obligations.TouchAndForgetSetTable : Prop :=
  ∀ (addr : Address) (s : State), s.held = false →
    (s.control.state = .unconfigured ∨ s.control.state = .faultNumber →
      exec (.touch addr) s = .next (answer .state s) ∧ exec .forget s = .next (answer .state s)) ∧
    (s.control.state ≠ .unconfigured → s.control.state ≠ .faultNumber →
      (exec .forget s = .next { answer .ok s with claim.affinity := [] } ∧
        ∀ (o : OfferFields) (a : Address) (t : State), t.claim.affinity = [] → o.addr = some a →
          (classOf t o.cls).affinityUse = true → penalty o t = t.control.config.station.affinityWeight) ∧
      (∀ before after : List Nat, s.ListsSound →
        s.claim.affinity = before ++ (addr.toNat / 2 ^ s.control.config.station.blockExponent) :: after →
        exec (.touch addr) s = .next { answer .ok s with
          claim.affinity := (addr.toNat / 2 ^ s.control.config.station.blockExponent) :: (before ++ after) }) ∧
      (addr.toNat / 2 ^ s.control.config.station.blockExponent ∉ s.claim.affinity →
        (s.claim.affinity.length < 16 →
          exec (.touch addr) s = .next { answer .ok s with
            claim.affinity := (addr.toNat / 2 ^ s.control.config.station.blockExponent) :: s.claim.affinity }) ∧
        (s.claim.affinity.length = 16 →
          exec (.touch addr) s = .next { answer .ok s with
            claim.affinity :=
              (addr.toNat / 2 ^ s.control.config.station.blockExponent) :: s.claim.affinity.dropLast })))

/-- A byte that names no command is answered PARAM after that one byte, with no effect in any state, and what is clocked in
after it is ignored (R177). UNKNOWN_COMMAND_BYTE with a byte that does name a command is answered alike (MODEL'S CHOICE, log 27:
the well-formedness check refuses it). A discarded transaction changes nothing but the port, which holds no byte and no response
any more (R175). A response is its code byte and its result bytes (R194); in the response phase SDO shows its bits, most significant
bit of each byte first, and then 1; while SCS# is high SDO is released (R174). That SDO is released also where RESET# has risen
with SCS# still low, and no transaction is active, is MODEL'S CHOICE (log 31): R174 and R175 give no level there. -/
def Obligations.PortEventsHaveNoEffect : Prop :=
  ∀ (b : Byte) (s : State), s.held = false →
    (exec (.unknownCommandByte b) s = .next (answer .param s)) ∧
    (b.toNat = 0 ∨ 18 ≤ b.toNat → decodePort [b] = some (.unknownCommandByte b)) ∧
    (∀ sdi, s.port.active = true → s.port.taken = true →
      portClock sdi s = { s with port.shifted := s.port.shifted + 1 } ∧
        (s.port.response = [5] → 8 ≤ s.port.shifted → sdo s = some true)) ∧
    (∀ code bytes, respond code bytes s = { s with
      port.response := (match code with
        | .ok => 0
        | .empty => 1
        | .full => 2
        | .state => 3
        | .unknown => 4
        | .param => 5
        | .locked => 6) :: bytes
      port.shifted := 0 } ∧ answer code s = respond code [] s) ∧
    (s.port.active = true → s.port.taken = true →
      (∀ (k j : Nat) (byte : Byte), s.port.response[k]? = some byte → j < 8 → s.port.shifted = 8 * k + j →
        sdo s = some (byte.getLsbD (7 - j))) ∧
      (8 * s.port.response.length ≤ s.port.shifted → sdo s = some true)) ∧
    (s.port.active = false → sdo s = none) ∧ sdo (portRise s) = none ∧
    exec .transactionDiscarded s = .next { s with
      port := { scsLow := s.port.scsLow, active := false, bits := [], bytes := [], taken := false, response := [],
                shifted := 0 } }

/-! ### Request lines -/

/-- An edge: the line of an edge entry becomes active (R65, R68). Outside ONLINE and MUTED, or masked, it is ignored; else a
QUIET entry makes a record or, with the list full, is LATCHED, a LATCHED entry merges it, and a LIVE entry latches it. Where the
record ends NO-PEER the entry is LIVE while the record waits for report room, else QUIET, and gets no hold (R66, R67, R72). -/
def Obligations.EdgeLineByEntryState : Prop :=
  ∀ (l : Line) (s : State), s.held = false → (s.control.config.sourceConfig l).trigger = .edge → lineActive s l = false →
    let taken : SourceEntry := { entryAt s l with takenHigh := !(entryAt s l).takenHigh, oppositeSeen := false }
    ((s.control.state ≠ .online ∧ s.control.state ≠ .muted) ∨ (entryAt s l).masked = true →
      exec (.lineBecomesActive l) s = .next { s with sources := s.sources.set l taken }) ∧
    (s.control.state = .online ∨ s.control.state = .muted → (entryAt s l).masked = false →
      ((entryAt s l).state = .quiet → s.offer.records.length < 32 → s.ServedSound →
        ∃ t tag, exec (.lineBecomesActive l) s = .next t ∧ FirstFreeTag tag s ∧ MadeIn (lineRecord l tag s) s t ∧
          t.port = s.port ∧ t.bus = s.bus ∧ t.control = s.control ∧ t.claim = s.claim ∧ t.work = s.work ∧
          (∀ k, k ≠ l → entryAt t k = entryAt s k) ∧
          (setsMeet (s.control.config.sourceConfig l).dest s.control.roster = true →
            entryAt t l = { taken with state := .live tag false }) ∧
          (setsMeet (s.control.config.sourceConfig l).dest s.control.roster = false →
            entryAt t l = { taken with
              state :=
                if (classOf s (lineRecord l tag s).cls).report = true ∧ 16 ≤ s.reports.queue.length then .live tag false
                else .quiet })) ∧
      ((entryAt s l).state = .quiet → 32 ≤ s.offer.records.length →
        exec (.lineBecomesActive l) s = .next { s with sources := s.sources.set l { taken with state := .latched } }) ∧
      ((entryAt s l).state = .latched →
        exec (.lineBecomesActive l) s = .next { s with sources := s.sources.set l taken }) ∧
      (∀ tag latched, (entryAt s l).state = .live tag latched →
        exec (.lineBecomesActive l) s = .next { s with sources := s.sources.set l { taken with state := .live tag true } }))

/-- The line of a level entry becomes active (R65, R69): QUIET, unmasked, its hold clear, in ONLINE or MUTED with a place free,
the entry makes a record; in every other case only the taken level changes. Where the record ends NO-PEER the entry's hold is
set, and it is LIVE while the record waits for report room, else QUIET (R66, R67, R72). -/
def Obligations.LevelLineByEntryState : Prop :=
  ∀ (l : Line) (s : State), s.held = false → (s.control.config.sourceConfig l).trigger = .level → lineActive s l = false →
    s.ServedSound →
    let taken : SourceEntry := { entryAt s l with takenHigh := !(entryAt s l).takenHigh, oppositeSeen := false }
    ((s.control.state ≠ .online ∧ s.control.state ≠ .muted) ∨ (entryAt s l).masked = true ∨ (entryAt s l).hold = true ∨
        (entryAt s l).state ≠ .quiet ∨ 32 ≤ s.offer.records.length →
      (entryAt s l).state ≠ .latched →
      exec (.lineBecomesActive l) s = .next { s with sources := s.sources.set l taken }) ∧
    (s.control.state = .online ∨ s.control.state = .muted → (entryAt s l).masked = false → (entryAt s l).hold = false →
      (entryAt s l).state = .quiet → s.offer.records.length < 32 →
      ∃ t tag, exec (.lineBecomesActive l) s = .next t ∧ FirstFreeTag tag s ∧ MadeIn (lineRecord l tag s) s t ∧
        t.port = s.port ∧ t.bus = s.bus ∧ t.control = s.control ∧ t.claim = s.claim ∧ t.work = s.work ∧
        (∀ k, k ≠ l → entryAt t k = entryAt s k) ∧
        (setsMeet (s.control.config.sourceConfig l).dest s.control.roster = true →
          entryAt t l = { taken with state := .live tag false }) ∧
        (setsMeet (s.control.config.sourceConfig l).dest s.control.roster = false →
          entryAt t l = { taken with
            state :=
              if (classOf s (lineRecord l tag s).cls).report = true ∧ 16 ≤ s.reports.queue.length then .live tag false
              else .quiet
            hold := true }))

/-- A line becomes inactive (R65, R68, R69): its taken level changes; a level entry's hold is cleared, and nothing else. MODEL'S
READING (log 17): an event that is no change of the taken level has no effect. -/
def Obligations.InactiveLineClearsHold : Prop :=
  ∀ (l : Line) (s : State), s.held = false →
    (lineActive s l = true →
      exec (.lineBecomesActive l) s = .next s ∧
      exec (.lineBecomesInactive l) s = .next { s with
        sources := s.sources.set l { entryAt s l with
          takenHigh := !(entryAt s l).takenHigh
          oppositeSeen := false
          hold := if (s.control.config.sourceConfig l).trigger = .level then false else (entryAt s l).hold } }) ∧
    (lineActive s l = false → exec (.lineBecomesInactive l) s = .next s)

/-- Free places go to the waiting sources, lowest line number first, and none is left waiting beside a free place (R71, R74):
said of `serveSources`, which every entry to ONLINE or MUTED and every freed place runs. The place that a line's record leaves
goes to that line's own entry first, whatever lower lines wait (R70): said of `placeFreed`, which runs when a record has left the
list, and of a CANCEL of the record. -/
def Obligations.FreePlacesGoLowestLineFirst : Prop :=
  ∀ s : State,
    (32 ≤ s.offer.records.length → serveSources s = s) ∧
    ((∀ l, waitingSource s l = false) → serveSources s = s) ∧
    (∀ l, waitingSource s l = true → (∀ k, k < l → waitingSource s k = false) → s.offer.records.length = 31 →
      setsMeet (s.control.config.sourceConfig l).dest s.control.roster = true →
      ∃ tag, FirstFreeTag tag s ∧
        serveSources s = { s with
          offer := { s.offer with records := s.offer.records ++ [lineRecord l tag s], tagCounter := tag + 1 }
          sources := s.sources.set l { entryAt s l with state := .live tag false } }) ∧
    (s.offer.records.length ≤ 32 →
      (∀ l, waitingSource s l = true → setsMeet (s.control.config.sourceConfig l).dest s.control.roster = true) →
      let served : List Line := ((List.finRange 8).filter fun l => waitingSource s l).take (32 - s.offer.records.length)
      ∃ new : List OutRecord, OnlyTickets s (serveSources s) ∧ (serveSources s).reports = s.reports ∧
        (serveSources s).offer.records = s.offer.records ++ new ∧ new.map (·.source) = served.map Source.line ∧
        (∀ r ∈ new, ∀ l, r.source = .line l →
          r = lineRecord l r.tag s ∧ entryAt (serveSources s) l = { entryAt s l with state := .live r.tag false }) ∧
        (∀ l, l ∉ served → entryAt (serveSources s) l = entryAt s l) ∧
        ∀ before r after, new = before ++ r :: after →
          FirstFreeTag r.tag { s with
            offer := { s.offer with
              records := s.offer.records ++ before
              tagCounter := match before.getLast? with
                | some x => x.tag + 1
                | none => s.offer.tagCounter } }) ∧
    ((∀ l, waitingSource (serveSources s) l = false) ∨ 32 ≤ (serveSources s).offer.records.length) ∧
    placeFreed .soft s = serveSources s ∧
    (∀ l, waitingSource s l = false → placeFreed (.line l) s = serveSources s) ∧
    (∀ l, waitingSource s l = true → s.offer.records.length = 31 →
      setsMeet (s.control.config.sourceConfig l).dest s.control.roster = true →
      ∃ tag, FirstFreeTag tag s ∧
        placeFreed (.line l) s = { s with
          offer := { s.offer with records := s.offer.records ++ [lineRecord l tag s], tagCounter := tag + 1 }
          sources := s.sources.set l { entryAt s l with state := .live tag false } }) ∧
    ∀ (l : Line) (r : OutRecord), s.held = false → s.control.state = .online ∨ s.control.state = .muted → s.ListsSound →
      s.offer.records.length = 32 → r ∈ s.offer.records → r.source = .line l → r.state = .waiting →
      (entryAt s l).state = .live r.tag true → (entryAt s l).masked = false →
      (classOf s r.cls).report = false ∨ s.reports.queue.length < 16 →
      setsMeet (s.control.config.sourceConfig l).dest s.control.roster = true →
      ∃ t tag, exec (.cancel r.tag) s = .next t ∧
        FirstFreeTag tag { s with offer.records := dropRecord r.tag s.offer.records } ∧
        t.offer.records = dropRecord r.tag s.offer.records ++ [lineRecord l tag s] ∧
        entryAt t l = { entryAt s l with state := .live tag false } ∧ ∀ k, k ≠ l → entryAt t k = entryAt s k

/-! ### Timers -/

/-- A tick returns the tick count to 0 and brings every running timer down by 1: BACKOFF and OUTSTANDING records' and the drain
limit's (R58, R84, R85). A timer brought to 0 stands at 0 until its own expiry is taken (MODEL'S FORM, log 4). -/
def Obligations.TickCountsTimersDown : Prop :=
  ∀ s : State, s.held = false → ∃ t, exec .deadlineTick s = .next t ∧ t.offer.tickCount = 0 ∧
    t.control.drainTimer = s.control.drainTimer.map (fun n => n - 1) ∧
    t.offer.records.length = s.offer.records.length ∧
    (∀ (i : Nat) (r : OutRecord), s.offer.records[i]? = some r →
      t.offer.records[i]? = some { r with
        state := match r.state with
          | .backoff n => .backoff (n - 1)
          | .outstanding c (some n) => .outstanding c (some (n - 1))
          | .outstanding c none => .outstanding c none
          | .waiting => .waiting
          | .offering c => .offering c
          | .resolved res n => .resolved res n }) ∧
    t = { s with
      offer := { s.offer with records := t.offer.records, tickCount := 0 }, control.drainTimer := t.control.drainTimer }

/-- A BACKOFF record whose timer has reached 0 enters WAITING in its place (R87). An OUTSTANDING record whose timer has reached
0 lapses (R107): below the re-offer limit it is re-offered at the next generation with attempts used 0, at the limit it is
resolved LAPSED with its attempts used (R13, R108). An expiry that no record is due is no event. -/
def Obligations.ExpiriesMoveRecords : Prop :=
  ∀ (tag : Tag) (s : State), s.held = false → s.ListsSound →
    ((∀ r ∈ s.offer.records, r.tag = tag → r.state ≠ .backoff 0) → exec (.backoffExpiry tag) s = .next s) ∧
    ((∀ r ∈ s.offer.records, r.tag = tag → ∀ c, r.state ≠ .outstanding c (some 0)) →
      exec (.deadlineExpiry tag) s = .next s) ∧
    ∀ r ∈ s.offer.records, r.tag = tag →
      (r.state = .backoff 0 →
        exec (.backoffExpiry tag) s = .next { s with
          offer.records := s.offer.records.map fun x => if x.tag = tag then { r with state := .waiting } else x }) ∧
      ((∃ c, r.state = .outstanding c (some 0)) →
        (r.generation.toNat < (classOf s r.cls).reofferLimit →
          exec (.deadlineExpiry tag) s = .next { s with
            offer.records := s.offer.records.map fun x =>
              if x.tag = tag then { r with generation := r.generation + 1, attempts := 0, state := .waiting } else x }) ∧
        ((classOf s r.cls).reofferLimit ≤ r.generation.toNat →
          ∃ t, exec (.deadlineExpiry tag) s = .next t ∧ ResolvedIn r (.lapsed r.attempts) s t ∧ TicketsThenDrain s t ∧
            t.port = s.port))

/-- At the drain limit every WAITING and OUTSTANDING record is resolved WITHDRAWN, in list order (R163); OFFERING and RESOLVED records are not
touched; the timer stops and drain-limit passed is yes (R58, R112). Where no limit has run out it is no event. -/
def Obligations.DrainLimitWithdraws : Prop :=
  ∀ s : State, s.held = false →
    (s.control.state ≠ .draining ∨ s.control.drainTimer ≠ some 0 → exec .drainLimitExpiry s = .next s) ∧
    (s.control.state = .draining → s.control.drainTimer = some 0 → s.ListsSound →
      ∃ t, exec .drainLimitExpiry s = .next t ∧ t.port = s.port ∧
        t.control = drainTested { s with control.drainTimer := none, control.drainPassed := true } t ∧
        OnlyTickets { s with control := t.control } t ∧
        (∀ r ∈ t.offer.records, r.state ≠ .waiting ∧ ∀ c timer, r.state ≠ .outstanding c timer) ∧
        (∀ r ∈ s.offer.records, (∃ c, r.state = .offering c) ∨ (∃ res n, r.state = .resolved res n) →
          r ∈ t.offer.records) ∧
        EndedInListOrder (fun r res => res = .withdrawn ∧ (r.state = .waiting ∨ ∃ c timer, r.state = .outstanding c timer))
          s t ∧
        ∀ r ∈ s.offer.records, r.state = .waiting ∨ (∃ c timer, r.state = .outstanding c timer) →
          ((classOf s r.cls).report = true →
            recordReport r .withdrawn ∈ t.reports.queue ∨
              ∃ n, { r with state := .resolved .withdrawn n } ∈ t.offer.records) ∧
          ((classOf s r.cls).report = false → ∀ x ∈ t.offer.records, x.tag ≠ r.tag))

/-! ### The bus: synchronisation, offers and claims -/

/-- An unsynchronised bus unit in a state that receives is synchronised by the quiet, with the bus idle (R19); an unreadable
kind drops the frame and ends the synchronisation (R21), and the offer in hand with it (DEDUCED, log 13). Elsewhere neither is
an event (DEDUCED, log 6). UNREADABLE_KIND with a kind that can be read acts alike (MODEL'S CHOICE, log 27: the well-formedness
check refuses it). -/
def Obligations.QuietAndUnreadableKind : Prop :=
  ∀ (kind : BitVec 3) (s : State), s.held = false →
    (s.control.state.receives = true → s.bus.synchronised = false →
      exec .synchronisationQuiet s = .next { s with
        bus.synchronised := true, bus.position := none, bus.recessiveRun := 110 } ∧
      exec (.unreadableKind kind) s = .next s) ∧
    (s.control.state.receives = true → s.bus.synchronised = true →
      exec .synchronisationQuiet s = .next s ∧
      exec (.unreadableKind kind) s = .next { s with
        bus := { s.bus with synchronised := false, position := none, recessiveRun := 0, answer := .none }
        claim.offerInHand := none }) ∧
    (s.control.state.receives = false →
      exec .synchronisationQuiet s = .next s ∧ exec (.unreadableKind kind) s = .next s)

/-- What another station sends is an event only of a receiving bus unit (R18, R19), never of a frame whose sender reads 15 (R26),
and a claim only with an offer in hand (R119): the model's reading of such an event is that it has no effect (DEDUCED, log 6). -/
def Obligations.FramesNeedReception : Prop :=
  ∀ s : State, s.held = false →
    (s.receiving = false →
      (∀ kind, exec (.unreadableKind kind) s = .next s) ∧ (∀ o, exec (.offerValidated o) s = .next s) ∧
      (∀ bid claimant confirm, exec (.claimAsRead bid claimant confirm) s = .next s) ∧
      (∀ n, exec (.noticeReceived n) s = .next s) ∧ (∀ sender, exec (.noticeSenderLearned sender) s = .next s) ∧
      (∀ sender, exec (.joinAnswer sender) s = .next s) ∧
      (∀ sender resumed clash, exec (.joinReceived sender resumed clash) s = .next s) ∧
      (∀ sender, exec (.leaveReceived sender) s = .next s) ∧ exec .checkFoundBad s = .next s) ∧
    (∀ o : OfferFields, o.sender = 15 → exec (.offerValidated o) s = .next s) ∧
    (∀ n : NoticeFields, n.sender = 15 → exec (.noticeReceived n) s = .next s) ∧
    exec (.noticeSenderLearned 15) s = .next s ∧ exec (.joinAnswer 15) s = .next s ∧
    (∀ resumed clash, exec (.joinReceived 15 resumed clash) s = .next s) ∧ exec (.leaveReceived 15) s = .next s ∧
    (s.claim.offerInHand = none →
      ∀ bid claimant confirm, exec (.claimAsRead bid claimant confirm) s = .next s)

/-- An OFFER the station has validated is decided at the end of its void slot (R120). It bids where it is ONLINE, the set names
it, the class is accepted (R121) and no in-service entry holds the ticket; with a WAITING copy of a lower generation it bids 0,
the upgrade (R122, R126); with any other copy it is silent; with none, and a place in the queue (R123), it bids its load plus 1
plus the affinity penalty (R124, R125). -/
def Obligations.OfferDecidedByRules : Prop :=
  ∀ (o : OfferFields) (s : State), s.held = false → s.receiving = true → o.sender ≠ 15 →
    let able : Prop := s.control.state = .online ∧ setHas o.dest s.control.number = true ∧
      (classOf s o.cls).accept = true ∧
      ∀ i e, s.work.slots.get i = some e → ¬ (e.originator = o.sender ∧ e.tag = o.tag)
    let silent : Host.Outcome State Fault Refusal := .next { s with
      claim.offerInHand := some { offer := o, bid := none, upgrade := false, inClaim := false } }
    (¬ able → exec (.offerValidated o) s = silent) ∧
    (able → s.WorkSound → ∀ r ∈ s.work.inbound, r.originator = o.sender → r.tag = o.tag →
      (r.state = .waiting → r.generation.toNat < o.generation.toNat →
        exec (.offerValidated o) s = .next { s with
          claim.offerInHand := some { offer := o, bid := some 0, upgrade := true, inClaim := true } }) ∧
      (r.state ≠ .waiting ∨ o.generation.toNat ≤ r.generation.toNat → exec (.offerValidated o) s = silent)) ∧
    (able → (∀ r ∈ s.work.inbound, ¬ (r.originator = o.sender ∧ r.tag = o.tag)) →
      (24 ≤ s.work.inbound.length → exec (.offerValidated o) s = silent) ∧
      (s.work.inbound.length < 24 → s.control.config.station.affinityWeight ≤ 15 →
        ∃ b : BitVec 6, 1 ≤ b.toNat ∧ b.toNat ≤ 47 ∧
          b.toNat = s.work.inbound.length + ((List.finRange 8).filter fun i => (s.work.slots.get i).isSome).length + 1 +
            (if (classOf s o.cls).affinityUse = true ∧
                ∃ a, o.addr = some a ∧ a.toNat / 2 ^ s.control.config.station.blockExponent ∉ s.claim.affinity
              then s.control.config.station.affinityWeight else 0) ∧
          exec (.offerValidated o) s = .next { s with
            claim.offerInHand := some { offer := o, bid := some b, upgrade := false, inClaim := true } }))

/-- The claim as read (R32, R53): without a confirm the sender enters the roster and the offer in hand ends, and nothing else
(R132); with a confirm the claimant enters the roster too, and a station that has dropped out, or is no longer ONLINE, commits
nothing (R128, R131). That a bidder still in the claim commits nothing where the fields read are not its own bid and number is
MODEL'S CHOICE (log 29): R128 alone calls it the winner. -/
def Obligations.ClaimReadLearnsAndEnds : Prop :=
  ∀ (bid : BitVec 6) (claimant : StationNumber) (s : State), s.held = false →
    ∀ h, s.receiving = true → s.claim.offerInHand = some h →
      exec (.claimAsRead bid claimant false) s = .next { s with
        control.roster := setAdd s.control.roster h.offer.sender, claim.offerInHand := none, bus.answer := .none } ∧
      (h.inClaim = false ∨ h.bid ≠ some bid ∨ claimant ≠ s.control.number ∨ s.control.state ≠ .online →
        exec (.claimAsRead bid claimant true) s = .next { s with
          control.roster := setAdd (setAdd s.control.roster h.offer.sender) claimant
          claim.offerInHand := none
          bus.answer := .none })

/-- The winner of a new ticket reads confirm dominant in ONLINE: a WAITING record takes the frame's fields, the destination set
among them (R3), and the claim counter's number, which rises, and stands after every record of its level or a more urgent one and before every less urgent
one (R129, R133, R142). -/
def Obligations.WinnerCommitsNewTicket : Prop :=
  ∀ (bid : BitVec 6) (h : OfferInHand) (s : State), s.held = false → s.receiving = true → s.control.state = .online →
    s.claim.offerInHand = some h → h.inClaim = true → h.bid = some bid → h.upgrade = false → s.WorkSound →
    ∃ before after, s.work.inbound = before ++ after ∧ (∀ x ∈ before, x.level.toNat ≤ h.offer.level.toNat) ∧
      (∀ x ∈ after, h.offer.level.toNat < x.level.toNat) ∧
      exec (.claimAsRead bid s.control.number true) s = .next { s with
        control.roster := setAdd (setAdd s.control.roster h.offer.sender) s.control.number
        bus.answer := .none
        claim := { s.claim with offerInHand := none, claimCounter := s.claim.claimCounter + 1 }
        work.inbound := before ++
          { originator := h.offer.sender, tag := h.offer.tag, generation := h.offer.generation, cls := h.offer.cls,
            level := h.offer.level, dest := h.offer.dest, addr := h.offer.addr, claimSequence := s.claim.claimCounter,
            state := .waiting } :: after }

/-- The winner of an upgrade reads confirm dominant in ONLINE: its held WAITING copy takes the frame's generation, class, level
and address (and its destination set, R3), keeps its claim sequence number, and is put back in queue order; counter, count and table are unchanged (R130,
R142). A copy taken meanwhile commits nothing (R131). -/
def Obligations.WinnerUpgradesCopy : Prop :=
  ∀ (bid : BitVec 6) (h : OfferInHand) (s : State), s.held = false → s.receiving = true → s.control.state = .online →
    s.claim.offerInHand = some h → h.inClaim = true → h.bid = some bid → h.upgrade = true → s.WorkSound →
    let ended : State := { s with
      control.roster := setAdd (setAdd s.control.roster h.offer.sender) s.control.number
      bus.answer := .none
      claim.offerInHand := none }
    ((∀ r ∈ s.work.inbound, r.originator = h.offer.sender → r.tag = h.offer.tag → r.state ≠ .waiting) →
      exec (.claimAsRead bid s.control.number true) s = .next ended) ∧
    (∀ first r last, s.work.inbound = first ++ r :: last → r.originator = h.offer.sender → r.tag = h.offer.tag →
      r.state = .waiting →
      ∃ before after, first ++ last = before ++ after ∧
        exec (.claimAsRead bid s.control.number true) s = .next { ended with
          work.inbound := before ++
            { r with generation := h.offer.generation, cls := h.offer.cls, level := h.offer.level, dest := h.offer.dest,
                     addr := h.offer.addr } :: after } ∧
        (before ++ { r with generation := h.offer.generation, cls := h.offer.cls, level := h.offer.level,
                            dest := h.offer.dest, addr := h.offer.addr } :: after).Pairwise
          (fun a b => a.level.toNat < b.level.toNat ∨ (a.level = b.level ∧ a.claimSequence < b.claimSequence)))

/-! ### The bus: notices, JOIN and LEAVE of others -/

/-- A notice to the station in ONLINE or DRAINING is heard. It is accepted where an OUTSTANDING record has its tag and generation
and its sender as claimant, and stale otherwise (R33, R100, R101). Accepted, a DONE completes the record (R102); a RETURN in
ONLINE charges an attempt and gives the ticket back, or ends it REFUSED at the limit (R103), and in DRAINING withdraws it
(R104). Stale, it changes no record (R105). In JOINING and MUTED it is neither tested nor answered. -/
def Obligations.NoticeAnsweredByMatch : Prop :=
  ∀ (n : NoticeFields) (s : State), s.held = false →
    (n.target ≠ s.control.number → exec (.noticeReceived n) s = .next s) ∧
    (s.receiving = true → n.sender ≠ 15 → n.target = s.control.number →
      (s.control.state = .joining ∨ s.control.state = .muted →
        exec (.noticeReceived n) s = .next { s with bus.answer := .none }) ∧
      (s.control.state = .online ∨ s.control.state = .draining →
        ((∀ r ∈ s.offer.records, r.tag = n.tag → r.generation = n.generation →
            ∀ timer, r.state ≠ .outstanding n.sender timer) →
          exec (.noticeReceived n) s = .next { s with bus.answer := .notice true true }) ∧
        (∀ r ∈ s.offer.records, r.tag = n.tag → r.generation = n.generation →
          (∃ timer, r.state = .outstanding n.sender timer) → s.ListsSound →
          ∃ t, exec (.noticeReceived n) s = .next t ∧ t.bus = { s.bus with answer := .notice true false } ∧
            TicketsThenDrain { s with bus := t.bus } t ∧ t.port = s.port ∧
            (n.word = .done → ResolvedIn r (.completed n.outcome n.sender) s t) ∧
            (n.word = .ret → s.control.state = .draining → ResolvedIn r .withdrawn s t) ∧
            (n.word = .ret → s.control.state = .online → r.attempts + 1 < (classOf s r.cls).attemptLimit →
              t.offer.records = s.offer.records.map fun x =>
                if x.tag = r.tag then { r with attempts := r.attempts + 1, state := .waiting } else x) ∧
            (n.word = .ret → s.control.state = .online → (classOf s r.cls).attemptLimit ≤ r.attempts + 1 →
              ResolvedIn { r with attempts := r.attempts + 1 } (.refused (r.attempts + 1)) s t))))

/-- What frames make the station learn and drive. The sender of any notice enters the roster at its end (R26, R53); a JOIN is
answered with presence in ONLINE and DRAINING, and with clash where its sender is the station's number (R35); a bad check with
the void slot, in JOINING, ONLINE and DRAINING (R24). On DBD, most significant bit first and dominant for 0 (R17), a receiver
drives the void slot; a bid and then its number, while in the claim (R29, R30); heard and stale (R33); its presence position and
the clash slot (R35); the acknowledge slot of a LEAVE it validated (R37); a transmitter drives its frame up to the check (R22,
R24), its claim, and confirm where a bid was read (R31), and nothing once broken or void (R25, R27). All else is undriven (R16,
R18, R19, R42). How the answer is remembered is the model's form (log 25), and a DRAIN does not silence a bid (DEDUCED, log
11). -/
def Obligations.FramesOfOthersAnswered : Prop :=
  (∀ (sender : StationNumber) (s : State), s.held = false →
    (s.receiving = true → sender ≠ 15 →
      exec (.noticeSenderLearned sender) s = .next { s with
        control.roster := setAdd s.control.roster sender, bus.answer := .none } ∧
      exec (.joinAnswer sender) s = .next { s with
        bus.answer :=
          if s.control.state = .online ∨ s.control.state = .draining then .join true (decide (sender = s.control.number))
          else .none }) ∧
    (s.receiving = true →
      exec .checkFoundBad s = .next { s with bus.answer := if s.control.state = .muted then .none else .void })) ∧
  ∀ s : State,
    let claims (lay : Layout) (n : Nat) : Prop :=
      (∀ h b, s.claim.offerInHand = some h → h.inClaim = true → h.bid = some b →
        (∀ k, k < 6 → n = lay.void + 1 + k → drive s = b.getLsbD (5 - k)) ∧
        (∀ k, k < 4 → n = lay.void + 7 + k → drive s = s.control.number.getLsbD (3 - k))) ∧
      ((∀ h, s.claim.offerInHand = some h → h.inClaim = false ∨ h.bid = none) → n < lay.length → drive s = true)
    (s.held = true ∨ s.receiving = false ∨ s.control.state.sends = false ∨ s.bus.position = none → drive s = true) ∧
    ∀ bits : List Bool, s.held = false → s.receiving = true → s.control.state.sends = true → s.bus.position = some bits →
      let n : Nat := bits.length + 1
      (∀ f, s.bus.ownFrame = some f →
        (f.status = .broken ∨ f.status = .voided → drive s = true) ∧
        (f.status = .transmitting →
          (n ≤ f.frame.layout.checkLast → drive s = bitAt f.frame.sentBits n) ∧
          (n = f.frame.layout.void → drive s = true) ∧
          (f.frame.kind ≠ .offer → f.frame.layout.void < n → drive s = true) ∧
          (f.frame.kind = .offer → f.frame.layout.void < n →
            claims f.frame.layout n ∧
            (n = f.frame.layout.length → (drive s = false ↔
              (rxBid bits f.frame.layout).toNat ≤ 62 ∧ (rxClaimant bits f.frame.layout).toNat ≤ 14))))) ∧
      ((∀ f, s.bus.ownFrame = some f → f.status = .lost) →
        (rxLayout bits = none → drive s = true) ∧
        ∀ lay, rxLayout bits = some lay →
          (n < lay.void → drive s = true) ∧
          (n = lay.void → (drive s = false ↔ s.bus.answer = .void)) ∧
          (rxKindCode bits = 4 → lay.void < n → claims lay n ∧ (n = lay.length → drive s = true)) ∧
          (rxKindCode bits = 2 ∨ rxKindCode bits = 3 →
            (n = 50 → (drive s = false ↔ ∃ stale, s.bus.answer = .notice true stale)) ∧
            (n = 51 → (drive s = false ↔ ∃ heard, s.bus.answer = .notice heard true))) ∧
          (rxKindCode bits = 0 →
            (∀ k, k ≤ 14 → n = 30 + k →
              (drive s = false ↔ (∃ clash, s.bus.answer = .join true clash) ∧ s.control.number.toNat = 14 - k)) ∧
            (n = 45 → (drive s = false ↔ ∃ presence, s.bus.answer = .join presence true))) ∧
          (rxKindCode bits = 1 → n = 29 →
            (drive s = false ↔ checkGood bits lay = true ∧ bitAt bits 28 = true ∧ rxSender bits ≠ 15)))

/-- The end of another station's clean JOIN, case by case (R52): its own number seen from outside in JOINING or MUTED takes the
station to FAULT(CLASH), with the collections and the roster emptied (R51, R64, R75); a dominant clash slot makes the JOIN
ignored; a sender not known, or resumed, only enters the roster; a known sender that lost its work has its claims orphaned
first: each of them lapses by R108 and R110, those at the re-offer limit resolved in list order (R163), and gone where the class
makes no report (R15). The station's own number with resumed 0, read in ONLINE or DRAINING with the clash
slot recessive, orphans nothing (MODEL'S CHOICE, log 12: R52's row taken alone would orphan). -/
def Obligations.JoinReceivedCaseByCase : Prop :=
  ∀ (sender : StationNumber) (resumed clash : Bool) (s : State), s.held = false →
    (s.receiving = true → sender ≠ 15 →
      (clash = true → exec (.joinReceived sender resumed clash) s = .next { s with bus.answer := .none }) ∧
      (clash = false → sender = s.control.number → s.control.state = .joining ∨ s.control.state = .muted →
        ∃ t, exec (.joinReceived sender resumed clash) s = .next t ∧
          t.control = { s.control with
            state := .faultClash, roster := 0, joinCandidate := none, mutedResumed := false, stateChanged := true } ∧
          t.bus = { s.bus with
            synchronised := false, position := none, recessiveRun := 0, ownFrame := none, answer := .none } ∧
          t.offer = { s.offer with records := [] } ∧ t.work.inbound = [] ∧ (∀ i, t.work.slots.get i = none) ∧
          t.work.noticeCounter = s.work.noticeCounter ∧
          (∀ l, entryAt t l = { entryAt s l with state := .quiet, hold := false }) ∧
          t.claim = { s.claim with offerInHand := none } ∧ t.reports = s.reports ∧ t.port = s.port) ∧
      (clash = false → ¬ (sender = s.control.number ∧ (s.control.state = .joining ∨ s.control.state = .muted)) →
        (resumed = true →
          exec (.joinReceived sender resumed clash) s = .next { s with
            control.roster := setAdd s.control.roster sender, bus.answer := .none }) ∧
        (resumed = false → setHas s.control.roster sender = false ∨ sender = s.control.number → s.DrainSound →
          exec (.joinReceived sender resumed clash) s = .next { s with
            control.roster := setAdd s.control.roster sender, bus.answer := .none }) ∧
        (resumed = false → setHas s.control.roster sender = true → sender ≠ s.control.number → s.ListsSound →
          ∃ t, exec (.joinReceived sender resumed clash) s = .next t ∧ t.port = s.port ∧
            t.bus = { s.bus with answer := .none } ∧
            t.control = drainTested { s with control.roster := setAdd s.control.roster sender } t ∧
            OnlyTickets { s with control := t.control, bus := t.bus } t ∧
            (∀ r ∈ t.offer.records, ∀ timer, r.state ≠ .outstanding sender timer) ∧
            EndedInListOrder (fun r res => (∃ timer, r.state = .outstanding sender timer) ∧
              (classOf s r.cls).reofferLimit ≤ r.generation.toNat ∧ res = .lapsed r.attempts) s t ∧
            ∀ r ∈ s.offer.records,
              ((∀ timer, r.state ≠ .outstanding sender timer) → r ∈ t.offer.records) ∧
              ((∃ timer, r.state = .outstanding sender timer) →
                (r.generation.toNat < (classOf s r.cls).reofferLimit →
                  { r with generation := r.generation + 1, attempts := 0, state := .waiting } ∈ t.offer.records) ∧
                ((classOf s r.cls).reofferLimit ≤ r.generation.toNat → EndedIn r (.lapsed r.attempts) s t)))))

/-- The end of another station's LEAVE (R37, R57): the acknowledge slot was driven in JOINING, ONLINE and DRAINING; a sender in
the roster has its claims orphaned (R108, R110), those at the re-offer limit resolved in list order (R163) and gone where the class
makes no report (R15), and is then removed (R54); one not in the roster changes nothing. The station's own number is removed in
JOINING with resumed 0, and stays in every other state (MODEL'S CHOICE, log 12). -/
def Obligations.LeaveReceivedOrphans : Prop :=
  ∀ (sender : StationNumber) (s : State), s.held = false →
    let answered : BusUnit := { s.bus with answer := if s.control.state = .muted then .none else .acknowledge }
    (s.receiving = true → sender ≠ 15 → setHas s.control.roster sender = false →
      exec (.leaveReceived sender) s = .next { s with bus := answered }) ∧
    (s.receiving = true → sender ≠ 15 → sender = s.control.number →
      (s.control.state ≠ .joining ∨ s.control.joinCandidate ≠ some false →
        exec (.leaveReceived sender) s = .next { s with bus := answered }) ∧
      (s.control.state = .joining → s.control.joinCandidate = some false →
        exec (.leaveReceived sender) s = .next { s with
          bus := answered, control.roster := setRemove s.control.roster sender })) ∧
    (s.receiving = true → sender ≠ 15 → setHas s.control.roster sender = true → sender ≠ s.control.number →
      s.ListsSound →
      ∃ t, exec (.leaveReceived sender) s = .next t ∧ t.port = s.port ∧ t.bus = answered ∧
        t.control = drainTested { s with control.roster := setRemove s.control.roster sender } t ∧
        setHas t.control.roster sender = false ∧
        OnlyTickets { s with control := t.control, bus := t.bus } t ∧
        (∀ r ∈ t.offer.records, ∀ timer, r.state ≠ .outstanding sender timer) ∧
        EndedInListOrder (fun r res => (∃ timer, r.state = .outstanding sender timer) ∧
          (classOf s r.cls).reofferLimit ≤ r.generation.toNat ∧ res = .lapsed r.attempts) s t ∧
        ∀ r ∈ s.offer.records,
          ((∀ timer, r.state ≠ .outstanding sender timer) → r ∈ t.offer.records) ∧
          ((∃ timer, r.state = .outstanding sender timer) →
            (r.generation.toNat < (classOf s r.cls).reofferLimit →
              { r with generation := r.generation + 1, attempts := 0, state := .waiting } ∈ t.offer.records) ∧
            ((classOf s r.cls).reofferLimit ≤ r.generation.toNat → EndedIn r (.lapsed r.attempts) s t)))

/-! ### The station's own frames -/

/-- FRAME_START in a bus unit free to start takes the first candidate by rank (R39, R40): in JOINING the JOIN alone, with its
resumed flag; else the LEAVE; else the oldest notice to another station that has no resolution (R152), with the fields of R22.
The bus unit is then inside the station's own frame. A unit not free starts nothing (R18). That the bus is idle is the event
itself, so the recessive run is not looked at, and an offer in hand is dropped (MODEL'S CHOICE, log 8). -/
def Obligations.FrameStartByRank : Prop :=
  ∀ s : State, s.held = false →
    (s.control.state.sends = false ∨ s.bus.synchronised = false ∨ s.bus.ownFrame ≠ none ∨ s.bus.position ≠ none →
      exec .frameStart s = .next s) ∧
    (s.control.state.sends = true → s.bus.synchronised = true → s.bus.ownFrame = none → s.bus.position = none →
      let started (c : Candidate) (f : Frame) : State := { s with
        bus := { s.bus with
          ownFrame := some { candidate := c, frame := f, status := .transmitting }, position := some [], answer := .none }
        claim.offerInHand := none }
      (∀ resumed, s.control.state = .joining → s.control.joinCandidate = some resumed →
        exec .frameStart s = .next (started .join (.join s.control.number resumed))) ∧
      (s.control.state ≠ .joining → s.control.leaveCandidate = true →
        exec .frameStart s = .next (started .leave (.leave s.control.number))) ∧
      (∀ n ∈ heldNotices s, s.control.state ≠ .joining → s.control.leaveCandidate = false → n.resolution = none →
        n.originator ≠ s.control.number →
        (∀ m ∈ heldNotices s, m.resolution = none → m.originator ≠ s.control.number → m = n ∨ n.age < m.age) →
        exec .frameStart s = .next (started (.notice n.ref) (.notice
          { word := match n.kind with
              | .done _ => .done
              | .ret => .ret
            sender := s.control.number, target := n.originator, tag := n.tag, generation := n.generation, cls := n.cls,
            outcome := match n.kind with
              | .done outcome => outcome
              | .ret => 0 }))))

/-- With no JOIN, LEAVE or notice to send, FRAME_START offers the WAITING record of the lowest level, and among equals the
earliest created, that has a station in common with the roster; every WAITING record ahead of it is resolved NO-PEER (R39, R40,
R83, R88), and is gone unless it waits for report room (R15, R93). Where every WAITING record fails the test no frame starts: a record made within the choice (DEDUCED, log 9) and a
LEAVE that a NO-PEER end brings (MODEL'S CHOICE, log 30) wait for the next one. The recessive run is not looked at, and an offer
in hand is dropped (MODEL'S CHOICE, log 8). -/
def Obligations.FrameStartOffersFirstWithPeer : Prop :=
  ∀ s : State, s.held = false → s.control.state = .online ∨ s.control.state = .draining → s.bus.synchronised = true →
    s.bus.ownFrame = none → s.bus.position = none → s.control.leaveCandidate = false →
    (∀ n ∈ heldNotices s, n.resolution ≠ none ∨ n.originator = s.control.number) → s.ListsSound →
    let ahead (x r : OutRecord) : Prop := x.level.toNat < r.level.toNat ∨
      (x.level = r.level ∧ [x, r].Sublist s.offer.records)
    let endedNoPeer (r : OutRecord) (t : State) : Prop := EndedIn r .noPeer s t
    ∃ t, exec .frameStart s = .next t ∧ t.control = drainTested s t ∧
      OnlyTickets { s with control := t.control, bus := t.bus, claim := { s.claim with offerInHand := none } } t ∧
      ((∀ r ∈ s.offer.records, r.state = .waiting → setsMeet r.dest s.control.roster = false) →
        t.bus = s.bus ∧ ∀ r ∈ s.offer.records, r.state = .waiting → endedNoPeer r t) ∧
      (∀ r ∈ s.offer.records, r.state = .waiting → setsMeet r.dest s.control.roster = true →
        (∀ x ∈ s.offer.records, x.state = .waiting → ahead x r → setsMeet x.dest s.control.roster = false) →
        t.bus = { s.bus with
          ownFrame := some
            { candidate := .offer r.tag
              frame := .offer { sender := s.control.number, level := r.level, tag := r.tag, generation := r.generation,
                                cls := r.cls, dest := r.dest, addr := r.addr }
              status := .transmitting }
          position := some []
          answer := .none } ∧
        { r with state := .offering false } ∈ t.offer.records ∧
        (∀ x ∈ s.offer.records, x.state = .waiting → ahead x r → endedNoPeer x t) ∧
        ∀ x ∈ s.offer.records, x.state = .waiting → ¬ ahead x r → x ≠ r → x ∈ t.offer.records)

/-- The end of the station's own OFFER, the rows of R89 in their order, for a count that stays below 32: cancel requested;
DRAINING with the limit passed, or unclaimed, lost, broken or void; claimed (R31, R90); in ONLINE unclaimed (R12, R91), or
lost, broken or void. The count follows the fate (R41), and a claimant that was confirmed enters the roster (R32, R53). An
end without such a frame is no event (log 7). -/
def Obligations.OfferEndByFate : Prop :=
  ∀ (fate : OfferFate) (s : State), s.held = false →
    ((∀ f tag, s.bus.ownFrame = some f → f.candidate ≠ .offer tag) → exec (.offerFrameEnd fate) s = .next s) ∧
    ∀ (f : OwnFrame) (r : OutRecord) (cancel : Bool), s.control.state = .online ∨ s.control.state = .draining →
      s.bus.ownFrame = some f → f.candidate = .offer r.tag → r ∈ s.offer.records → r.state = .offering cancel →
      s.ListsSound →
      let errors : Nat := match fate with
        | .lost => s.bus.errorCount
        | .broken => s.bus.errorCount + 8
        | .void => s.bus.errorCount + 8
        | .clean _ _ => s.bus.errorCount - 1
      let claimed : Option StationNumber := match fate with
        | .clean bid claimant => if bid.toNat ≤ 62 ∧ claimant.toNat ≤ 14 then some claimant else none
        | .lost => none
        | .broken => none
        | .void => none
      errors ≤ 31 →
      ∃ t u, exec (.offerFrameEnd fate) s = .next t ∧ t.port = s.port ∧
        t.bus = { s.bus with ownFrame := none, position := none, recessiveRun := 0, errorCount := errors } ∧
        u = { s with
          bus := t.bus
          control.roster := match claimed with
            | some c => setAdd s.control.roster c
            | none => s.control.roster
          claim.offerInHand := match fate with
            | .broken => none
            | .void => none
            | .lost => s.claim.offerInHand
            | .clean _ _ => s.claim.offerInHand } ∧
        TicketsThenDrain u t ∧
        (cancel = true → ResolvedIn r .cancelled s t) ∧
        (cancel = false → s.control.state = .draining → s.control.drainPassed = true ∨ claimed = none →
          ResolvedIn r .withdrawn s t) ∧
        (∀ c, cancel = false → claimed = some c → s.control.state = .online ∨ s.control.drainPassed = false →
          t.offer.records = s.offer.records.map fun x =>
            if x.tag = r.tag then
              { r with
                state := .outstanding c
                           (if (classOf s r.cls).deadline = 0 then none else some (classOf s r.cls).deadline) }
            else x) ∧
        (∀ bid claimant, cancel = false → s.control.state = .online → fate = .clean bid claimant → claimed = none →
          (r.attempts + 1 < (classOf s r.cls).attemptLimit →
            t.offer.records = s.offer.records.map fun x =>
              if x.tag = r.tag then
                { r with attempts := r.attempts + 1,
                         state := if (classOf s r.cls).retry = 0 then .waiting else .backoff (classOf s r.cls).retry }
              else x) ∧
          ((classOf s r.cls).attemptLimit ≤ r.attempts + 1 →
            ResolvedIn { r with attempts := r.attempts + 1 } (.refused (r.attempts + 1)) s t)) ∧
        (cancel = false → s.control.state = .online → fate = .lost ∨ fate = .broken ∨ fate = .void →
          t.offer.records = s.offer.records.map fun x => if x.tag = r.tag then { r with state := .waiting } else x)

/-- The end of the station's own DONE or RETURN, for a count that stays below 32 (R34, R41): lost, broken or void it is no
attempt (R153); heard and not stale, the copy is freed in silence (R154); unheard, it is one attempt, and the eighth ends the
copy UNDELIVERED (R155); stale, the copy ends STALE (R156, R158). An end without such a frame is no event (log 7). -/
def Obligations.NoticeFateByReply : Prop :=
  ∀ (fate : NoticeFate) (s : State), s.held = false →
    ((∀ f ref, s.bus.ownFrame = some f → f.candidate ≠ .notice ref) → exec (.noticeFrameFate fate) s = .next s) ∧
    ∀ (f : OwnFrame) (n : HeldNotice), s.control.state = .online ∨ s.control.state = .draining →
      s.bus.ownFrame = some f → f.candidate = .notice n.ref → n ∈ heldNotices s → s.WorkSound →
      let errors : Nat := match fate with
        | .lost => s.bus.errorCount
        | .broken => s.bus.errorCount + 8
        | .void => s.bus.errorCount + 8
        | .clean _ _ => s.bus.errorCount - 1
      let ended : State := { s with
        bus := { s.bus with ownFrame := none, position := none, recessiveRun := 0, errorCount := errors } }
      let freed (how : CopyEnd) : State := { freeCopy n.ref ended with
        reports := { queue := s.reports.queue ++ [{ kind := match how with
                                                      | .stale => .stale
                                                      | .undelivered => .undelivered
                                                    tag := n.tag, cls := n.cls, source := none,
                                                    generation := n.generation, peer := some n.originator,
                                                    outcome := none, attempts := none }]
                     resolutionCounter := s.reports.resolutionCounter + 1 } }
      let waits (how : CopyEnd) : State := { writeNotice { n with
          attempts := n.attempts + 1, resolution := some { how := how, number := s.reports.resolutionCounter } } ended with
        reports.resolutionCounter := s.reports.resolutionCounter + 1 }
      let tested (t : State) : State := { t with control := drainTested s t }
      errors ≤ 31 →
      (fate = .lost ∨ fate = .broken ∨ fate = .void → exec (.noticeFrameFate fate) s = .next ended) ∧
      (fate = .clean true false → exec (.noticeFrameFate fate) s = .next (tested (freeCopy n.ref ended))) ∧
      (∀ stale, fate = .clean false stale →
        (n.attempts + 1 < 8 →
          exec (.noticeFrameFate fate) s = .next (writeNotice { n with attempts := n.attempts + 1 } ended)) ∧
        (8 ≤ n.attempts + 1 → s.reports.queue.length < 16 →
          exec (.noticeFrameFate fate) s = .next (tested (freed .undelivered))) ∧
        (8 ≤ n.attempts + 1 → 16 ≤ s.reports.queue.length →
          exec (.noticeFrameFate fate) s = .next (waits .undelivered))) ∧
      (fate = .clean true true →
        (s.reports.queue.length < 16 → exec (.noticeFrameFate fate) s = .next (tested (freed .stale))) ∧
        (16 ≤ s.reports.queue.length → exec (.noticeFrameFate fate) s = .next (waits .stale)))

/-- The end of the station's own JOIN, for a count that stays below 32 (R38, R41, R49): clean with clash recessive it enters
ONLINE, with the presence set and its own number in the roster and the state-changed flag set (R50, R53). Every outbound record
that no held self-notice matches is kept (R48, R50, R98). Each held self-notice is answered (R157): accepted, its copy is freed and
its record COMPLETED (R102), or given back or REFUSED (R103); stale, its copy ends STALE, its report placed or, the queue full,
waiting (R106, R158). A tag freed so may be taken by a record that a line makes. All other work stays, the no-peer holds are cleared (R72) and its waiting sources served (R74): a hold that stands after it was set by a
NO-PEER end within it; clean with clash dominant it enters FAULT(CLASH) with its collections and
roster emptied (R51, R75); lost, broken or void it stays the candidate. An end without such a frame is no event (log 7). -/
def Obligations.JoinEndByClash : Prop :=
  ∀ (fate : JoinFate) (s : State), s.held = false →
    ((∀ f, s.bus.ownFrame = some f → f.candidate ≠ .join) → exec (.joinFrameEnd fate) s = .next s) ∧
    ∀ f : OwnFrame, s.control.state = .joining → s.bus.ownFrame = some f → f.candidate = .join →
      let errors : Nat := match fate with
        | .lost => s.bus.errorCount
        | .broken => s.bus.errorCount + 8
        | .void => s.bus.errorCount + 8
        | .clean _ _ => s.bus.errorCount - 1
      let ended : BusUnit := { s.bus with ownFrame := none, position := none, recessiveRun := 0, errorCount := errors }
      errors ≤ 31 →
      (fate = .lost ∨ fate = .broken ∨ fate = .void → exec (.joinFrameEnd fate) s = .next { s with bus := ended }) ∧
      (∀ presence, fate = .clean presence true →
        ∃ t, exec (.joinFrameEnd fate) s = .next t ∧
          t.control = { s.control with
            state := .faultClash, roster := 0, joinCandidate := none, mutedResumed := false, stateChanged := true } ∧
          t.bus = { ended with synchronised := false, answer := .none } ∧
          t.offer = { s.offer with records := [] } ∧ t.work.inbound = [] ∧ (∀ i, t.work.slots.get i = none) ∧
          t.work.noticeCounter = s.work.noticeCounter ∧
          (∀ l, entryAt t l = { entryAt s l with state := .quiet, hold := false }) ∧
          t.claim = { s.claim with offerInHand := none } ∧ t.reports = s.reports ∧ t.port = s.port) ∧
      (∀ presence, fate = .clean presence false → s.ListsSound → s.WorkSound →
        ∃ t, exec (.joinFrameEnd fate) s = .next t ∧ t.bus = ended ∧ t.claim = s.claim ∧ t.port = s.port ∧
          t.control = { s.control with
            state := .online, roster := setAdd (s.control.roster ||| presence) s.control.number, joinCandidate := none,
            stateChanged := true } ∧
          t.work.noticeCounter = s.work.noticeCounter ∧
          (∀ n ∈ heldNotices t, n.originator = s.control.number → n.resolution ≠ none) ∧
          (∀ n ∈ heldNotices s, n.resolution ≠ none → n ∈ heldNotices t) ∧
          (∀ i, s.work.slots.get i = none → t.work.slots.get i = none) ∧
          (t.work.inbound.map fun r => (r.originator, r.tag)).Sublist (s.work.inbound.map fun r => (r.originator, r.tag)) ∧
          (∀ i e, s.work.slots.get i = some e → e.state = .taken ∨ e.originator ≠ s.control.number →
            t.work.slots.get i = some e) ∧
          (∀ r ∈ s.work.inbound, r.state = .waiting ∨ r.originator ≠ s.control.number → r ∈ t.work.inbound) ∧
          (s.EntriesSound → ∀ l, (entryAt t l).hold = true →
            (s.control.config.sourceConfig l).trigger = .level ∧ lineActive t l = true ∧ (entryAt t l).masked = false ∧
              setsMeet (s.control.config.sourceConfig l).dest t.control.roster = false) ∧
          (∀ l, (entryAt t l).masked = (entryAt s l).masked ∧ (entryAt t l).takenHigh = (entryAt s l).takenHigh) ∧
          ((∀ l, waitingSource t l = false) ∨ 32 ≤ t.offer.records.length) ∧
          s.reports.queue <+: t.reports.queue ∧
          let selfNotice (n : HeldNotice) : Prop :=
            n ∈ heldNotices s ∧ n.originator = s.control.number ∧ n.resolution = none
          let own (r : OutRecord) (n : HeldNotice) : Prop :=
            r.tag = n.tag ∧ r.generation = n.generation ∧ ∃ timer, r.state = .outstanding s.control.number timer
          let freed (n : HeldNotice) : Prop :=
            match n.ref with
            | .slot i => t.work.slots.get i = none
            | .inbound o tag => ∀ x ∈ t.work.inbound, ¬ (x.originator = o ∧ x.tag = tag)
          (∀ r ∈ s.offer.records, (∀ n, selfNotice n → ¬ own r n) → r ∈ t.offer.records) ∧
          (∀ x ∈ t.offer.records, (∀ r ∈ s.offer.records, r.tag ≠ x.tag) → LineMade s x) ∧
          (∀ n r, selfNotice n → r ∈ s.offer.records → own r n → freed n ∧
            (∀ outcome, n.kind = .done outcome → EndedIn r (.completed outcome s.control.number) s t) ∧
            (n.kind = .ret → r.attempts + 1 < (classOf s r.cls).attemptLimit →
              { r with attempts := r.attempts + 1, state := .waiting } ∈ t.offer.records) ∧
            (n.kind = .ret → (classOf s r.cls).attemptLimit ≤ r.attempts + 1 →
              EndedIn { r with attempts := r.attempts + 1 } (.refused (r.attempts + 1)) s t)) ∧
          ∀ n, selfNotice n → (∀ r ∈ s.offer.records, ¬ own r n) →
            (freed n ∧ ({ kind := .stale, tag := n.tag, cls := n.cls, source := none, generation := n.generation,
                          peer := some s.control.number, outcome := none, attempts := none } : Report) ∈ t.reports.queue) ∨
            (16 ≤ t.reports.queue.length ∧ ∃ k, s.reports.resolutionCounter ≤ k ∧
              { n with resolution := some ⟨.stale, k⟩ } ∈ heldNotices t))

/-- The end of the station's own LEAVE, for a count that stays below 32 (R38, R41, R57): clean it enters OFFLINE, with the
roster emptied, the LEAVE candidate absent, the bus unit stopped and the state-changed flag set (R54, R62); lost, broken or
void it stays the candidate. An end without such a frame is no event (log 7). -/
def Obligations.LeaveEndGoesOffline : Prop :=
  ∀ (fate : LeaveFate) (s : State), s.held = false →
    ((∀ f, s.bus.ownFrame = some f → f.candidate ≠ .leave) → exec (.leaveFrameEnd fate) s = .next s) ∧
    ∀ f : OwnFrame, s.control.state = .draining → s.bus.ownFrame = some f → f.candidate = .leave →
      let errors : Nat := match fate with
        | .lost => s.bus.errorCount
        | .broken => s.bus.errorCount + 8
        | .void => s.bus.errorCount + 8
        | .clean => s.bus.errorCount - 1
      let ended : BusUnit := { s.bus with ownFrame := none, position := none, recessiveRun := 0, errorCount := errors }
      errors ≤ 31 →
      (fate = .lost ∨ fate = .broken ∨ fate = .void → exec (.leaveFrameEnd fate) s = .next { s with bus := ended }) ∧
      (fate = .clean →
        exec (.leaveFrameEnd fate) s = .next { s with
          bus := { ended with synchronised := false, answer := .none }
          claim.offerInHand := none
          control := { s.control with
            state := .offline, roster := 0, leaveCandidate := false, stateChanged := true } })

/-- A broken or void own frame that brings the count to 32 or more mutes the station at its end (R41, R42, R59): the fate has
been handed first, so the record of an OFFER is CANCELLED where a cancel was requested, else WITHDRAWN in DRAINING, else
WAITING (R89); the flag is set; the resumed flag is the JOIN candidate's from JOINING, and 1 else; a drain is abandoned; the
synchronisation, the roster, the record and every collection are kept, the outbound list and the report queue at the front of
what new records of lines add (R59, R74), and the station's own number is in the roster (R189; DEDUCED for
a station that mutes in JOINING, log 14). -/
def Obligations.CountOf32Mutes : Prop :=
  ∀ (c : Instr) (f : OwnFrame) (s : State), s.held = false → s.control.state.sends = true → s.bus.ownFrame = some f →
    24 ≤ s.bus.errorCount →
    (f.candidate = .join ∧ s.control.state = .joining ∧ (c = .joinFrameEnd .broken ∨ c = .joinFrameEnd .void)) ∨
      (f.candidate = .leave ∧ (c = .leaveFrameEnd .broken ∨ c = .leaveFrameEnd .void)) ∨
      (∃ ref, f.candidate = .notice ref ∧ (c = .noticeFrameFate .broken ∨ c = .noticeFrameFate .void)) ∨
      (∃ tag, f.candidate = .offer tag ∧ (c = .offerFrameEnd .broken ∨ c = .offerFrameEnd .void)) →
    ∃ t, exec c s = .next t ∧ t.bus = { s.bus with
        ownFrame := none, position := none, recessiveRun := 0, errorCount := s.bus.errorCount + 8 } ∧
      t.control = { s.control with
        state := .muted
        roster := setAdd s.control.roster s.control.number
        stateChanged := true
        mutedResumed := if s.control.state = .joining then s.control.joinCandidate.getD false else true
        joinCandidate := none
        drainTimer := none
        leaveCandidate := false
        drainPassed := false } ∧
      t.work = s.work ∧ t.port = s.port ∧ drive t = true ∧ t.claim.affinity = s.claim.affinity ∧
      t.claim.claimCounter = s.claim.claimCounter ∧ s.reports.queue <+: t.reports.queue ∧
      ((∀ tag, f.candidate ≠ .offer tag) → s.offer.records <+: t.offer.records) ∧
      (∀ r cancel, f.candidate = .offer r.tag → s.ListsSound → r ∈ s.offer.records → r.state = .offering cancel →
        s.control.state = .online ∨ s.control.state = .draining →
        (cancel = true → ResolvedAtMuting r .cancelled s t) ∧
        (cancel = false → s.control.state = .draining → ResolvedAtMuting r .withdrawn s t) ∧
        (cancel = false → s.control.state = .online →
          (s.offer.records.map fun x => if x.tag = r.tag then { r with state := .waiting } else x) <+: t.offer.records)) ∧
      ((∀ l, waitingSource t l = false) ∨ 32 ≤ t.offer.records.length)

/-! ### Items over all commands -/

/-- The station number is the straps as sampled at the last RESET_RELEASE: no other command or event changes it (R45). -/
def Obligations.StationNumberHeld : Prop :=
  ∀ (c : Instr) (s t : State), (∀ straps, c ≠ .resetRelease straps) → exec c s = .next t →
    t.control.number = s.control.number

/-- The state-changed flag (R62): STATUS returns it and sets it to 0, RESET_RELEASE sets it to 0, and every other command or
event leaves it set exactly where it was set or the station has entered ONLINE, MUTED, FAULT(CLASH) or OFFLINE. The invariant
of `ControlStaysSound` rules out a JOIN of the station's own in flight where it is ONLINE already. -/
def Obligations.StateChangedFlagMarksEntries : Prop :=
  (∀ s : State, s.held = false → ∃ t, exec .status s = .next t ∧ t.control.stateChanged = false ∧
    t.control.state = s.control.state ∧ (t.port.response.getLast? = some 1 ↔ s.control.stateChanged = true)) ∧
  (∀ (straps : StationNumber) (s : State), ∃ t, exec (.resetRelease straps) s = .next t ∧ t.control.stateChanged = false) ∧
  (∀ s : State, s.held = false → s.control.stateChanged = true → s.control.config.station.enableStateChange = true →
    atnLow s = true) ∧
  ∀ (c : Instr) (s t : State), s.ControlSound → (∀ straps, c ≠ .resetRelease straps) → c ≠ .status → exec c s = .next t →
    (t.control.stateChanged = true ↔
      s.control.stateChanged = true ∨
        (t.control.state ≠ s.control.state ∧
          (t.control.state = .online ∨ t.control.state = .muted ∨ t.control.state = .faultClash ∨
            t.control.state = .offline)))

/-- ATN# is driven low exactly while an enabled condition holds: as many WAITING inbound records as the threshold, a report in
the queue, or the state-changed flag (R171); while RESET# is low it is released (R172). -/
def Obligations.AttentionLineFollowsConditions : Prop :=
  ∀ s : State, atnLow s = true ↔
    s.held = false ∧
      ((s.control.config.station.enableInbound = true ∧
          s.control.config.station.attentionThreshold ≤
            (s.work.inbound.filter fun r => decide (r.state = .waiting)).length) ∨
        (s.control.config.station.enableReport = true ∧ s.reports.queue ≠ []) ∨
        (s.control.config.station.enableStateChange = true ∧ s.control.stateChanged = true))

/-! ### Frames and transactions as bits and bytes -/

/-- What a transmitter sends, a receiver reads: for every frame and whatever stands on the wire after its check, the bits up to
the check end at the position of section 12.1, the layout and every field are read back, and the check is good (R17, R21, R22,
R24, section 12.1). -/
def Obligations.FrameBitsReadBack : Prop :=
  ∀ (f : Frame) (tail : List Bool),
    f.sentBits.length = f.layout.checkLast ∧ rxFrame (f.sentBits ++ tail) = some f ∧
      rxLayout (f.sentBits ++ tail) = some f.layout ∧ checkGood (f.sentBits ++ tail) f.layout = true

/-- The check of R193, step by step: all ones, one step for each bit; the sixteen bits the transmitter sends after the fields
are the register, most significant first; a receiver compares them with the register over the bits it reads from the first
kind bit on. Two field strings that differ in one bit have different checks. -/
def Obligations.CheckComputation : Prop :=
  crc [] = 65535 ∧
    (∀ (bits : List Bool) (b : Bool),
      crc (bits ++ [b]) =
        if (crc bits).getLsbD 15 ≠ b then (BitVec.ofNat 16 (2 * (crc bits).toNat)) ^^^ 4129
        else BitVec.ofNat 16 (2 * (crc bits).toNat)) ∧
    (∀ (f : Frame), f.sentBits = false :: (f.body ++ (List.range 16).map fun i => (crc f.body).getLsbD (15 - i))) ∧
    (∀ (bits : List Bool) (kind : FrameKind) (hasAddr : Bool),
      checkGood bits (layoutOf kind hasAddr) = true ↔
        (crc ((bits.drop 1).take ((layoutOf kind hasAddr).checkFirst - 2))).toNat =
          ((bits.drop ((layoutOf kind hasAddr).checkFirst - 1)).take 16).foldl (fun n b => 2 * n + b.toNat) 0) ∧
    ∀ (front back : List Bool) (b : Bool), crc (front ++ b :: back) ≠ crc (front ++ (!b) :: back)

/-- The bytes of a command are read back as that command when the last of them arrives, and no sooner (R174, R175, R177, R194,
R195, section 12.2). -/
def Obligations.PortBytesReadBack : Prop :=
  ∀ (c : Instr) (bytes : List Byte), c.wellFormed = true → portBytes c = some bytes →
    decodePort bytes = some c ∧ ∀ k, k < bytes.length → decodePort (bytes.take k) = none

/-! ### Laws that every step keeps -/

/-- R77, R134, R162: the sizes of the lists, and no tag or block twice. -/
def Obligations.ListsStaySound : Prop :=
  ∀ s t : State, s.ListsSound → step s = .next t → t.ListsSound

/-- R141, R142, R143: the inbound queue's size and order, and no ticket held twice. -/
def Obligations.WorkStaysSound : Prop :=
  ∀ s t : State, s.WorkSound → step s = .next t → t.WorkSound

/-- R18, R41, R42, R44, R46, R47, R48, R54, R56, R58: station control's items, the bus unit and the error count agree with the
station state. -/
def Obligations.ControlStaysSound : Prop :=
  ∀ s t : State, s.ControlSound → step s = .next t → t.ControlSound

/-- R12, R64, R67, R108: no level entry latches an edge, LIVE entries and line-sourced records belong together one to one, and
generation and attempts used keep within the class's limits. -/
def Obligations.TicketsStaySound : Prop :=
  ∀ s t : State, s.ListsSound → s.ControlSound → s.TicketsSound → step s = .next t → t.TicketsSound

/-- R71, R73: no source waits beside a free place, and no masked entry holds a latched edge. -/
def Obligations.SourcesStayServed : Prop :=
  ∀ s t : State, s.ControlSound → s.ServedSound → step s = .next t → t.ServedSound

/-- R56: in DRAINING the LEAVE candidate is present exactly when the drain is complete. -/
def Obligations.DrainStaysSound : Prop :=
  ∀ s t : State, s.Sound → step s = .next t → t.DrainSound
end

