-- ==== Sys2Proof/Laws/State.lean ====
section
/-! SUPPORT. Each named update, field by field: what it writes and what it leaves. All are true by unfolding. -/

namespace Sys2Proof.Machine

/-! ### Reading a vector by a line or slot number -/

@[simp] theorem vector_get_set {α : Type} {n : Nat} (v : Vector α n) (i j : Fin n) (a : α) :
    (v.set i a).get j = if i = j then a else v.get j := by
  simp only [Vector.get, Vector.set, Array.getElem_set, Fin.ext_iff]
  rfl

@[simp] theorem vector_get_replicate {α : Type} (n : Nat) (i : Fin n) (a : α) : (Vector.replicate n a).get i = a := by
  change (Vector.replicate n a)[i.val] = a
  exact Vector.getElem_replicate _

@[simp] theorem vector_get_map {α β : Type} {n : Nat} (v : Vector α n) (i : Fin n) (f : α → β) :
    (v.map f).get i = f (v.get i) := by
  change (v.map f)[i.val] = f v[i.val]
  exact Vector.getElem_map _ _

@[simp] theorem vector_get_ofFn {α : Type} {n : Nat} (f : Fin n → α) (i : Fin n) : (Vector.ofFn f).get i = f i := by
  change (Vector.ofFn f)[i.val] = f i
  exact Vector.getElem_ofFn _

theorem vector_ext {α : Type} {n : Nat} {v w : Vector α n} (h : ∀ i : Fin n, v.get i = w.get i) : v = w :=
  Vector.ext fun i hi => h ⟨i, hi⟩

theorem vector_mem_toList {α : Type} {n : Nat} {v : Vector α n} {a : α} :
    a ∈ v.toList ↔ ∃ i : Fin n, v.get i = a := by
  rw [Vector.mem_toList_iff, Vector.mem_iff_getElem]
  exact ⟨fun ⟨i, hi, h⟩ => ⟨⟨i, hi⟩, h⟩, fun ⟨i, h⟩ => ⟨i.val, i.isLt, h⟩⟩

/-! ### The named updates -/

@[simp] theorem respond_bus (code : ResponseCode) (bytes : List Byte) (s : State) :
    (respond code bytes s).bus = s.bus := rfl
@[simp] theorem respond_control (code : ResponseCode) (bytes : List Byte) (s : State) :
    (respond code bytes s).control = s.control := rfl
@[simp] theorem respond_sources (code : ResponseCode) (bytes : List Byte) (s : State) :
    (respond code bytes s).sources = s.sources := rfl
@[simp] theorem respond_offer (code : ResponseCode) (bytes : List Byte) (s : State) :
    (respond code bytes s).offer = s.offer := rfl
@[simp] theorem respond_claim (code : ResponseCode) (bytes : List Byte) (s : State) :
    (respond code bytes s).claim = s.claim := rfl
@[simp] theorem respond_work (code : ResponseCode) (bytes : List Byte) (s : State) :
    (respond code bytes s).work = s.work := rfl
@[simp] theorem respond_reports (code : ResponseCode) (bytes : List Byte) (s : State) :
    (respond code bytes s).reports = s.reports := rfl
@[simp] theorem respond_port (code : ResponseCode) (bytes : List Byte) (s : State) :
    (respond code bytes s).port = { s.port with response := code.byte :: bytes, shifted := 0 } := rfl
@[simp] theorem respond_held (code : ResponseCode) (bytes : List Byte) (s : State) :
    (respond code bytes s).held = s.held := rfl
@[simp] theorem respond_pending (code : ResponseCode) (bytes : List Byte) (s : State) :
    (respond code bytes s).pending = s.pending := rfl
@[simp] theorem respond_inputs (code : ResponseCode) (bytes : List Byte) (s : State) :
    (respond code bytes s).inputs = s.inputs := rfl
@[simp] theorem respond_freeDrawn (code : ResponseCode) (bytes : List Byte) (s : State) :
    (respond code bytes s).freeDrawn = s.freeDrawn := rfl

@[simp] theorem answer_bus (code : ResponseCode) (s : State) : (answer code s).bus = s.bus := rfl
@[simp] theorem answer_control (code : ResponseCode) (s : State) : (answer code s).control = s.control := rfl
@[simp] theorem answer_sources (code : ResponseCode) (s : State) : (answer code s).sources = s.sources := rfl
@[simp] theorem answer_offer (code : ResponseCode) (s : State) : (answer code s).offer = s.offer := rfl
@[simp] theorem answer_claim (code : ResponseCode) (s : State) : (answer code s).claim = s.claim := rfl
@[simp] theorem answer_work (code : ResponseCode) (s : State) : (answer code s).work = s.work := rfl
@[simp] theorem answer_reports (code : ResponseCode) (s : State) : (answer code s).reports = s.reports := rfl
@[simp] theorem answer_port (code : ResponseCode) (s : State) :
    (answer code s).port = { s.port with response := [code.byte], shifted := 0 } := rfl
@[simp] theorem answer_held (code : ResponseCode) (s : State) : (answer code s).held = s.held := rfl
@[simp] theorem answer_pending (code : ResponseCode) (s : State) : (answer code s).pending = s.pending := rfl
@[simp] theorem answer_inputs (code : ResponseCode) (s : State) : (answer code s).inputs = s.inputs := rfl
@[simp] theorem answer_freeDrawn (code : ResponseCode) (s : State) : (answer code s).freeDrawn = s.freeDrawn := rfl

@[simp] theorem putRecord_bus (r : OutRecord) (s : State) : (putRecord r s).bus = s.bus := rfl
@[simp] theorem putRecord_control (r : OutRecord) (s : State) : (putRecord r s).control = s.control := rfl
@[simp] theorem putRecord_sources (r : OutRecord) (s : State) : (putRecord r s).sources = s.sources := rfl
@[simp] theorem putRecord_offer (r : OutRecord) (s : State) :
    (putRecord r s).offer = { s.offer with records := s.offer.records.map fun x => if x.tag == r.tag then r else x } := rfl
@[simp] theorem putRecord_claim (r : OutRecord) (s : State) : (putRecord r s).claim = s.claim := rfl
@[simp] theorem putRecord_work (r : OutRecord) (s : State) : (putRecord r s).work = s.work := rfl
@[simp] theorem putRecord_reports (r : OutRecord) (s : State) : (putRecord r s).reports = s.reports := rfl
@[simp] theorem putRecord_port (r : OutRecord) (s : State) : (putRecord r s).port = s.port := rfl
@[simp] theorem putRecord_held (r : OutRecord) (s : State) : (putRecord r s).held = s.held := rfl
@[simp] theorem putRecord_pending (r : OutRecord) (s : State) : (putRecord r s).pending = s.pending := rfl
@[simp] theorem putRecord_inputs (r : OutRecord) (s : State) : (putRecord r s).inputs = s.inputs := rfl
@[simp] theorem putRecord_freeDrawn (r : OutRecord) (s : State) : (putRecord r s).freeDrawn = s.freeDrawn := rfl

@[simp] theorem placeRecord_bus (r : OutRecord) (s : State) : (placeRecord r s).bus = s.bus := rfl
@[simp] theorem placeRecord_control (r : OutRecord) (s : State) : (placeRecord r s).control = s.control := rfl
@[simp] theorem placeRecord_sources (r : OutRecord) (s : State) : (placeRecord r s).sources = s.sources := rfl
@[simp] theorem placeRecord_offer (r : OutRecord) (s : State) :
    (placeRecord r s).offer = { s.offer with records := s.offer.records ++ [r], tagCounter := r.tag + 1 } := rfl
@[simp] theorem placeRecord_claim (r : OutRecord) (s : State) : (placeRecord r s).claim = s.claim := rfl
@[simp] theorem placeRecord_work (r : OutRecord) (s : State) : (placeRecord r s).work = s.work := rfl
@[simp] theorem placeRecord_reports (r : OutRecord) (s : State) : (placeRecord r s).reports = s.reports := rfl
@[simp] theorem placeRecord_port (r : OutRecord) (s : State) : (placeRecord r s).port = s.port := rfl
@[simp] theorem placeRecord_held (r : OutRecord) (s : State) : (placeRecord r s).held = s.held := rfl
@[simp] theorem placeRecord_pending (r : OutRecord) (s : State) : (placeRecord r s).pending = s.pending := rfl
@[simp] theorem placeRecord_inputs (r : OutRecord) (s : State) : (placeRecord r s).inputs = s.inputs := rfl
@[simp] theorem placeRecord_freeDrawn (r : OutRecord) (s : State) : (placeRecord r s).freeDrawn = s.freeDrawn := rfl

@[simp] theorem setEntry_bus (l : Line) (e : SourceEntry) (s : State) : (setEntry l e s).bus = s.bus := rfl
@[simp] theorem setEntry_control (l : Line) (e : SourceEntry) (s : State) :
    (setEntry l e s).control = s.control := rfl
@[simp] theorem setEntry_sources (l : Line) (e : SourceEntry) (s : State) :
    (setEntry l e s).sources = s.sources.set l e := rfl
@[simp] theorem setEntry_offer (l : Line) (e : SourceEntry) (s : State) : (setEntry l e s).offer = s.offer := rfl
@[simp] theorem setEntry_claim (l : Line) (e : SourceEntry) (s : State) : (setEntry l e s).claim = s.claim := rfl
@[simp] theorem setEntry_work (l : Line) (e : SourceEntry) (s : State) : (setEntry l e s).work = s.work := rfl
@[simp] theorem setEntry_reports (l : Line) (e : SourceEntry) (s : State) :
    (setEntry l e s).reports = s.reports := rfl
@[simp] theorem setEntry_port (l : Line) (e : SourceEntry) (s : State) : (setEntry l e s).port = s.port := rfl
@[simp] theorem setEntry_held (l : Line) (e : SourceEntry) (s : State) : (setEntry l e s).held = s.held := rfl
@[simp] theorem setEntry_pending (l : Line) (e : SourceEntry) (s : State) :
    (setEntry l e s).pending = s.pending := rfl
@[simp] theorem setEntry_inputs (l : Line) (e : SourceEntry) (s : State) : (setEntry l e s).inputs = s.inputs := rfl
@[simp] theorem setEntry_freeDrawn (l : Line) (e : SourceEntry) (s : State) :
    (setEntry l e s).freeDrawn = s.freeDrawn := rfl

@[simp] theorem pushReport_bus (r : Report) (s : State) : (pushReport r s).bus = s.bus := rfl
@[simp] theorem pushReport_control (r : Report) (s : State) : (pushReport r s).control = s.control := rfl
@[simp] theorem pushReport_sources (r : Report) (s : State) : (pushReport r s).sources = s.sources := rfl
@[simp] theorem pushReport_offer (r : Report) (s : State) : (pushReport r s).offer = s.offer := rfl
@[simp] theorem pushReport_claim (r : Report) (s : State) : (pushReport r s).claim = s.claim := rfl
@[simp] theorem pushReport_work (r : Report) (s : State) : (pushReport r s).work = s.work := rfl
@[simp] theorem pushReport_reports (r : Report) (s : State) :
    (pushReport r s).reports = { s.reports with queue := s.reports.queue ++ [r] } := rfl
@[simp] theorem pushReport_port (r : Report) (s : State) : (pushReport r s).port = s.port := rfl
@[simp] theorem pushReport_held (r : Report) (s : State) : (pushReport r s).held = s.held := rfl
@[simp] theorem pushReport_pending (r : Report) (s : State) : (pushReport r s).pending = s.pending := rfl
@[simp] theorem pushReport_inputs (r : Report) (s : State) : (pushReport r s).inputs = s.inputs := rfl
@[simp] theorem pushReport_freeDrawn (r : Report) (s : State) : (pushReport r s).freeDrawn = s.freeDrawn := rfl

@[simp] theorem countResolution_bus (s : State) : (countResolution s).bus = s.bus := rfl
@[simp] theorem countResolution_control (s : State) : (countResolution s).control = s.control := rfl
@[simp] theorem countResolution_sources (s : State) : (countResolution s).sources = s.sources := rfl
@[simp] theorem countResolution_offer (s : State) : (countResolution s).offer = s.offer := rfl
@[simp] theorem countResolution_claim (s : State) : (countResolution s).claim = s.claim := rfl
@[simp] theorem countResolution_work (s : State) : (countResolution s).work = s.work := rfl
@[simp] theorem countResolution_reports (s : State) :
    (countResolution s).reports = { s.reports with resolutionCounter := s.reports.resolutionCounter + 1 } := rfl
@[simp] theorem countResolution_port (s : State) : (countResolution s).port = s.port := rfl
@[simp] theorem countResolution_held (s : State) : (countResolution s).held = s.held := rfl
@[simp] theorem countResolution_pending (s : State) : (countResolution s).pending = s.pending := rfl
@[simp] theorem countResolution_inputs (s : State) : (countResolution s).inputs = s.inputs := rfl
@[simp] theorem countResolution_freeDrawn (s : State) : (countResolution s).freeDrawn = s.freeDrawn := rfl

@[simp] theorem setSlot_bus (i : Fin 8) (e : Option ServiceEntry) (s : State) : (setSlot i e s).bus = s.bus := rfl
@[simp] theorem setSlot_control (i : Fin 8) (e : Option ServiceEntry) (s : State) :
    (setSlot i e s).control = s.control := rfl
@[simp] theorem setSlot_sources (i : Fin 8) (e : Option ServiceEntry) (s : State) :
    (setSlot i e s).sources = s.sources := rfl
@[simp] theorem setSlot_offer (i : Fin 8) (e : Option ServiceEntry) (s : State) :
    (setSlot i e s).offer = s.offer := rfl
@[simp] theorem setSlot_claim (i : Fin 8) (e : Option ServiceEntry) (s : State) :
    (setSlot i e s).claim = s.claim := rfl
@[simp] theorem setSlot_work (i : Fin 8) (e : Option ServiceEntry) (s : State) :
    (setSlot i e s).work = { s.work with slots := s.work.slots.set i e } := rfl
@[simp] theorem setSlot_reports (i : Fin 8) (e : Option ServiceEntry) (s : State) :
    (setSlot i e s).reports = s.reports := rfl
@[simp] theorem setSlot_port (i : Fin 8) (e : Option ServiceEntry) (s : State) : (setSlot i e s).port = s.port := rfl
@[simp] theorem setSlot_held (i : Fin 8) (e : Option ServiceEntry) (s : State) : (setSlot i e s).held = s.held := rfl
@[simp] theorem setSlot_pending (i : Fin 8) (e : Option ServiceEntry) (s : State) :
    (setSlot i e s).pending = s.pending := rfl
@[simp] theorem setSlot_inputs (i : Fin 8) (e : Option ServiceEntry) (s : State) :
    (setSlot i e s).inputs = s.inputs := rfl
@[simp] theorem setSlot_freeDrawn (i : Fin 8) (e : Option ServiceEntry) (s : State) :
    (setSlot i e s).freeDrawn = s.freeDrawn := rfl

@[simp] theorem setInbound_bus (q : List InRecord) (s : State) : (setInbound q s).bus = s.bus := rfl
@[simp] theorem setInbound_control (q : List InRecord) (s : State) : (setInbound q s).control = s.control := rfl
@[simp] theorem setInbound_sources (q : List InRecord) (s : State) : (setInbound q s).sources = s.sources := rfl
@[simp] theorem setInbound_offer (q : List InRecord) (s : State) : (setInbound q s).offer = s.offer := rfl
@[simp] theorem setInbound_claim (q : List InRecord) (s : State) : (setInbound q s).claim = s.claim := rfl
@[simp] theorem setInbound_work (q : List InRecord) (s : State) :
    (setInbound q s).work = { s.work with inbound := q } := rfl
@[simp] theorem setInbound_reports (q : List InRecord) (s : State) : (setInbound q s).reports = s.reports := rfl
@[simp] theorem setInbound_port (q : List InRecord) (s : State) : (setInbound q s).port = s.port := rfl
@[simp] theorem setInbound_held (q : List InRecord) (s : State) : (setInbound q s).held = s.held := rfl
@[simp] theorem setInbound_pending (q : List InRecord) (s : State) : (setInbound q s).pending = s.pending := rfl
@[simp] theorem setInbound_inputs (q : List InRecord) (s : State) : (setInbound q s).inputs = s.inputs := rfl
@[simp] theorem setInbound_freeDrawn (q : List InRecord) (s : State) : (setInbound q s).freeDrawn = s.freeDrawn := rfl

@[simp] theorem addToRoster_bus (n : StationNumber) (s : State) : (addToRoster n s).bus = s.bus := rfl
@[simp] theorem addToRoster_control (n : StationNumber) (s : State) :
    (addToRoster n s).control = { s.control with roster := setAdd s.control.roster n } := rfl
@[simp] theorem addToRoster_sources (n : StationNumber) (s : State) : (addToRoster n s).sources = s.sources := rfl
@[simp] theorem addToRoster_offer (n : StationNumber) (s : State) : (addToRoster n s).offer = s.offer := rfl
@[simp] theorem addToRoster_claim (n : StationNumber) (s : State) : (addToRoster n s).claim = s.claim := rfl
@[simp] theorem addToRoster_work (n : StationNumber) (s : State) : (addToRoster n s).work = s.work := rfl
@[simp] theorem addToRoster_reports (n : StationNumber) (s : State) : (addToRoster n s).reports = s.reports := rfl
@[simp] theorem addToRoster_port (n : StationNumber) (s : State) : (addToRoster n s).port = s.port := rfl
@[simp] theorem addToRoster_held (n : StationNumber) (s : State) : (addToRoster n s).held = s.held := rfl
@[simp] theorem addToRoster_pending (n : StationNumber) (s : State) : (addToRoster n s).pending = s.pending := rfl
@[simp] theorem addToRoster_inputs (n : StationNumber) (s : State) : (addToRoster n s).inputs = s.inputs := rfl
@[simp] theorem addToRoster_freeDrawn (n : StationNumber) (s : State) :
    (addToRoster n s).freeDrawn = s.freeDrawn := rfl

@[simp] theorem loseSynchronisation_bus (s : State) :
    (loseSynchronisation s).bus = { s.bus with synchronised := false, position := none, recessiveRun := 0, answer := .none } := rfl
@[simp] theorem loseSynchronisation_control (s : State) : (loseSynchronisation s).control = s.control := rfl
@[simp] theorem loseSynchronisation_sources (s : State) : (loseSynchronisation s).sources = s.sources := rfl
@[simp] theorem loseSynchronisation_offer (s : State) : (loseSynchronisation s).offer = s.offer := rfl
@[simp] theorem loseSynchronisation_claim (s : State) :
    (loseSynchronisation s).claim = { s.claim with offerInHand := none } := rfl
@[simp] theorem loseSynchronisation_work (s : State) : (loseSynchronisation s).work = s.work := rfl
@[simp] theorem loseSynchronisation_reports (s : State) : (loseSynchronisation s).reports = s.reports := rfl
@[simp] theorem loseSynchronisation_port (s : State) : (loseSynchronisation s).port = s.port := rfl
@[simp] theorem loseSynchronisation_held (s : State) : (loseSynchronisation s).held = s.held := rfl
@[simp] theorem loseSynchronisation_pending (s : State) : (loseSynchronisation s).pending = s.pending := rfl
@[simp] theorem loseSynchronisation_inputs (s : State) : (loseSynchronisation s).inputs = s.inputs := rfl
@[simp] theorem loseSynchronisation_freeDrawn (s : State) : (loseSynchronisation s).freeDrawn = s.freeDrawn := rfl

@[simp] theorem stopBus_bus (s : State) :
    (stopBus s).bus = { s.bus with synchronised := false, position := none, recessiveRun := 0, answer := .none, ownFrame := none } := rfl
@[simp] theorem stopBus_control (s : State) : (stopBus s).control = s.control := rfl
@[simp] theorem stopBus_sources (s : State) : (stopBus s).sources = s.sources := rfl
@[simp] theorem stopBus_offer (s : State) : (stopBus s).offer = s.offer := rfl
@[simp] theorem stopBus_claim (s : State) : (stopBus s).claim = { s.claim with offerInHand := none } := rfl
@[simp] theorem stopBus_work (s : State) : (stopBus s).work = s.work := rfl
@[simp] theorem stopBus_reports (s : State) : (stopBus s).reports = s.reports := rfl
@[simp] theorem stopBus_port (s : State) : (stopBus s).port = s.port := rfl
@[simp] theorem stopBus_held (s : State) : (stopBus s).held = s.held := rfl
@[simp] theorem stopBus_pending (s : State) : (stopBus s).pending = s.pending := rfl
@[simp] theorem stopBus_inputs (s : State) : (stopBus s).inputs = s.inputs := rfl
@[simp] theorem stopBus_freeDrawn (s : State) : (stopBus s).freeDrawn = s.freeDrawn := rfl

@[simp] theorem clearHolds_bus (s : State) : (clearHolds s).bus = s.bus := rfl
@[simp] theorem clearHolds_control (s : State) : (clearHolds s).control = s.control := rfl
@[simp] theorem clearHolds_sources (s : State) :
    (clearHolds s).sources = s.sources.map fun e => { e with hold := false } := rfl
@[simp] theorem clearHolds_offer (s : State) : (clearHolds s).offer = s.offer := rfl
@[simp] theorem clearHolds_claim (s : State) : (clearHolds s).claim = s.claim := rfl
@[simp] theorem clearHolds_work (s : State) : (clearHolds s).work = s.work := rfl
@[simp] theorem clearHolds_reports (s : State) : (clearHolds s).reports = s.reports := rfl
@[simp] theorem clearHolds_port (s : State) : (clearHolds s).port = s.port := rfl
@[simp] theorem clearHolds_held (s : State) : (clearHolds s).held = s.held := rfl
@[simp] theorem clearHolds_pending (s : State) : (clearHolds s).pending = s.pending := rfl
@[simp] theorem clearHolds_inputs (s : State) : (clearHolds s).inputs = s.inputs := rfl
@[simp] theorem clearHolds_freeDrawn (s : State) : (clearHolds s).freeDrawn = s.freeDrawn := rfl

@[simp] theorem endOwnFrame_bus (errors : Nat) (s : State) :
    (endOwnFrame errors s).bus = { s.bus with ownFrame := none, position := none, recessiveRun := 0, errorCount := errors } := rfl
@[simp] theorem endOwnFrame_control (errors : Nat) (s : State) : (endOwnFrame errors s).control = s.control := rfl
@[simp] theorem endOwnFrame_sources (errors : Nat) (s : State) : (endOwnFrame errors s).sources = s.sources := rfl
@[simp] theorem endOwnFrame_offer (errors : Nat) (s : State) : (endOwnFrame errors s).offer = s.offer := rfl
@[simp] theorem endOwnFrame_claim (errors : Nat) (s : State) : (endOwnFrame errors s).claim = s.claim := rfl
@[simp] theorem endOwnFrame_work (errors : Nat) (s : State) : (endOwnFrame errors s).work = s.work := rfl
@[simp] theorem endOwnFrame_reports (errors : Nat) (s : State) : (endOwnFrame errors s).reports = s.reports := rfl
@[simp] theorem endOwnFrame_port (errors : Nat) (s : State) : (endOwnFrame errors s).port = s.port := rfl
@[simp] theorem endOwnFrame_held (errors : Nat) (s : State) : (endOwnFrame errors s).held = s.held := rfl
@[simp] theorem endOwnFrame_pending (errors : Nat) (s : State) : (endOwnFrame errors s).pending = s.pending := rfl
@[simp] theorem endOwnFrame_inputs (errors : Nat) (s : State) : (endOwnFrame errors s).inputs = s.inputs := rfl
@[simp] theorem endOwnFrame_freeDrawn (errors : Nat) (s : State) :
    (endOwnFrame errors s).freeDrawn = s.freeDrawn := rfl

@[simp] theorem setAnswer_bus (a : Answer) (s : State) : (setAnswer a s).bus = { s.bus with answer := a } := rfl
@[simp] theorem setAnswer_control (a : Answer) (s : State) : (setAnswer a s).control = s.control := rfl
@[simp] theorem setAnswer_sources (a : Answer) (s : State) : (setAnswer a s).sources = s.sources := rfl
@[simp] theorem setAnswer_offer (a : Answer) (s : State) : (setAnswer a s).offer = s.offer := rfl
@[simp] theorem setAnswer_claim (a : Answer) (s : State) : (setAnswer a s).claim = s.claim := rfl
@[simp] theorem setAnswer_work (a : Answer) (s : State) : (setAnswer a s).work = s.work := rfl
@[simp] theorem setAnswer_reports (a : Answer) (s : State) : (setAnswer a s).reports = s.reports := rfl
@[simp] theorem setAnswer_port (a : Answer) (s : State) : (setAnswer a s).port = s.port := rfl
@[simp] theorem setAnswer_held (a : Answer) (s : State) : (setAnswer a s).held = s.held := rfl
@[simp] theorem setAnswer_pending (a : Answer) (s : State) : (setAnswer a s).pending = s.pending := rfl
@[simp] theorem setAnswer_inputs (a : Answer) (s : State) : (setAnswer a s).inputs = s.inputs := rfl
@[simp] theorem setAnswer_freeDrawn (a : Answer) (s : State) : (setAnswer a s).freeDrawn = s.freeDrawn := rfl

@[simp] theorem startFrame_bus (c : Candidate) (f : Frame) (s : State) :
    (startFrame c f s).bus = { s.bus with ownFrame := some { candidate := c, frame := f, status := .transmitting }, position := some [], answer := .none } := rfl
@[simp] theorem startFrame_control (c : Candidate) (f : Frame) (s : State) :
    (startFrame c f s).control = s.control := rfl
@[simp] theorem startFrame_sources (c : Candidate) (f : Frame) (s : State) :
    (startFrame c f s).sources = s.sources := rfl
@[simp] theorem startFrame_offer (c : Candidate) (f : Frame) (s : State) : (startFrame c f s).offer = s.offer := rfl
@[simp] theorem startFrame_claim (c : Candidate) (f : Frame) (s : State) : (startFrame c f s).claim = s.claim := rfl
@[simp] theorem startFrame_work (c : Candidate) (f : Frame) (s : State) : (startFrame c f s).work = s.work := rfl
@[simp] theorem startFrame_reports (c : Candidate) (f : Frame) (s : State) :
    (startFrame c f s).reports = s.reports := rfl
@[simp] theorem startFrame_port (c : Candidate) (f : Frame) (s : State) : (startFrame c f s).port = s.port := rfl
@[simp] theorem startFrame_held (c : Candidate) (f : Frame) (s : State) : (startFrame c f s).held = s.held := rfl
@[simp] theorem startFrame_pending (c : Candidate) (f : Frame) (s : State) :
    (startFrame c f s).pending = s.pending := rfl
@[simp] theorem startFrame_inputs (c : Candidate) (f : Frame) (s : State) :
    (startFrame c f s).inputs = s.inputs := rfl
@[simp] theorem startFrame_freeDrawn (c : Candidate) (f : Frame) (s : State) :
    (startFrame c f s).freeDrawn = s.freeDrawn := rfl

@[simp] theorem queueEvents_bus (events : List Instr) (s : State) : (queueEvents events s).bus = s.bus := rfl
@[simp] theorem queueEvents_control (events : List Instr) (s : State) :
    (queueEvents events s).control = s.control := rfl
@[simp] theorem queueEvents_sources (events : List Instr) (s : State) :
    (queueEvents events s).sources = s.sources := rfl
@[simp] theorem queueEvents_offer (events : List Instr) (s : State) : (queueEvents events s).offer = s.offer := rfl
@[simp] theorem queueEvents_claim (events : List Instr) (s : State) : (queueEvents events s).claim = s.claim := rfl
@[simp] theorem queueEvents_work (events : List Instr) (s : State) : (queueEvents events s).work = s.work := rfl
@[simp] theorem queueEvents_reports (events : List Instr) (s : State) :
    (queueEvents events s).reports = s.reports := rfl
@[simp] theorem queueEvents_port (events : List Instr) (s : State) : (queueEvents events s).port = s.port := rfl
@[simp] theorem queueEvents_held (events : List Instr) (s : State) : (queueEvents events s).held = s.held := rfl
@[simp] theorem queueEvents_pending (events : List Instr) (s : State) :
    (queueEvents events s).pending = s.pending ++ events := rfl
@[simp] theorem queueEvents_inputs (events : List Instr) (s : State) : (queueEvents events s).inputs = s.inputs := rfl
@[simp] theorem queueEvents_freeDrawn (events : List Instr) (s : State) :
    (queueEvents events s).freeDrawn = s.freeDrawn := rfl

end Sys2Proof.Machine
end

