-- ==== Sys2Proof/Laws/Tickets.lean ====
section
/-! SUPPORT. What the ticket operations of Machine/Ops.lean can touch: each changes the offer, source and report units only
(`OnlyTickets`). Provers cite these lemmas in place of unfolding the operations. -/

namespace Sys2Proof.Machine

@[simp] theorem entryAt_setEntry (l k : Line) (e : SourceEntry) (s : State) :
    entryAt (setEntry l e s) k = if l = k then e else entryAt s k := by
  simp [entryAt]

theorem OnlyTickets.refl (s : State) : OnlyTickets s s :=
  ⟨rfl, rfl, rfl, rfl, rfl, rfl, rfl, rfl, rfl, rfl, fun _ => ⟨rfl, rfl, rfl⟩, List.prefix_refl _, le_refl _⟩

theorem OnlyTickets.trans {s t u : State} (h : OnlyTickets s t) (k : OnlyTickets t u) : OnlyTickets s u where
  bus := k.bus.trans h.bus
  control := k.control.trans h.control
  claim := k.claim.trans h.claim
  work := k.work.trans h.work
  port := k.port.trans h.port
  held := k.held.trans h.held
  pending := k.pending.trans h.pending
  inputs := k.inputs.trans h.inputs
  freeDrawn := k.freeDrawn.trans h.freeDrawn
  tickCount := k.tickCount.trans h.tickCount
  masks l := ⟨(k.masks l).1.trans (h.masks l).1, (k.masks l).2.1.trans (h.masks l).2.1,
    (k.masks l).2.2.trans (h.masks l).2.2⟩
  reports := h.reports.trans k.reports
  numbers := le_trans h.numbers k.numbers

theorem onlyTickets_setEntry (l : Line) (e : SourceEntry) (s : State) (hm : e.masked = (entryAt s l).masked)
    (ht : e.takenHigh = (entryAt s l).takenHigh) (ho : e.oppositeSeen = (entryAt s l).oppositeSeen) :
    OnlyTickets s (setEntry l e s) where
  bus := rfl
  control := rfl
  claim := rfl
  work := rfl
  port := rfl
  held := rfl
  pending := rfl
  inputs := rfl
  freeDrawn := rfl
  tickCount := rfl
  masks k := by
    rw [entryAt_setEntry]
    by_cases h : l = k
    · subst h; simp [hm, ht, ho]
    · simp [h]
  reports := List.prefix_refl _
  numbers := le_refl _

theorem onlyTickets_records (records : List OutRecord) (tag : Tag) (s : State) :
    OnlyTickets s { s with offer.records := records, offer.tagCounter := tag } :=
  ⟨rfl, rfl, rfl, rfl, rfl, rfl, rfl, rfl, rfl, rfl, fun _ => ⟨rfl, rfl, rfl⟩, List.prefix_refl _, le_refl _⟩

theorem onlyTickets_putRecord (r : OutRecord) (s : State) : OnlyTickets s (putRecord r s) :=
  onlyTickets_records _ s.offer.tagCounter s

theorem onlyTickets_placeRecord (r : OutRecord) (s : State) : OnlyTickets s (placeRecord r s) :=
  onlyTickets_records _ _ s

theorem onlyTickets_pushReport (r : Report) (s : State) : OnlyTickets s (pushReport r s) :=
  ⟨rfl, rfl, rfl, rfl, rfl, rfl, rfl, rfl, rfl, rfl, fun _ => ⟨rfl, rfl, rfl⟩, List.prefix_append _ _, le_refl _⟩

theorem onlyTickets_countResolution (s : State) : OnlyTickets s (countResolution s) :=
  ⟨rfl, rfl, rfl, rfl, rfl, rfl, rfl, rfl, rfl, rfl, fun _ => ⟨rfl, rfl, rfl⟩, List.prefix_refl _, Nat.le_succ _⟩

theorem onlyTickets_releaseSource (source : Source) (s : State) : OnlyTickets s (releaseSource source s) := by
  unfold releaseSource
  split
  · exact .refl s
  · split
    · exact onlyTickets_setEntry _ _ s rfl rfl rfl
    · exact onlyTickets_setEntry _ _ s rfl rfl rfl
    · exact .refl s
    · exact .refl s

theorem onlyTickets_holdSource (source : Source) (s : State) : OnlyTickets s (holdSource source s) := by
  unfold holdSource
  split
  · exact .refl s
  · split
    · exact onlyTickets_setEntry _ _ s rfl rfl rfl
    · exact .refl s

theorem onlyTickets_leaveList (r : OutRecord) (s : State) : OnlyTickets s (leaveList r s) :=
  (onlyTickets_records _ s.offer.tagCounter s).trans (onlyTickets_releaseSource r.source _)

/-- A resolution has drawn its number, and a NO-PEER end is known to the source unit (R93 step 3, R72). -/
def numberDrawn (r : OutRecord) (res : Resolution) (s : State) : State :=
  if res = .noPeer then holdSource r.source (countResolution s) else countResolution s

theorem fixResolution_eq (r : OutRecord) (res : Resolution) (s : State) : fixResolution r res s =
    if (classOf s r.cls).report then
      if reportRoom s then leaveList r (pushReport (recordReport r res) (numberDrawn r res s))
      else putRecord { r with state := .resolved res s.reports.resolutionCounter } (numberDrawn r res s)
    else leaveList r (numberDrawn r res s) := rfl

theorem onlyTickets_numberDrawn (r : OutRecord) (res : Resolution) (s : State) :
    OnlyTickets s (numberDrawn r res s) := by
  unfold numberDrawn
  split
  · exact (onlyTickets_countResolution s).trans (onlyTickets_holdSource _ _)
  · exact onlyTickets_countResolution s

theorem onlyTickets_fixResolution (r : OutRecord) (res : Resolution) (s : State) :
    OnlyTickets s (fixResolution r res s) := by
  rw [fixResolution_eq]
  have known := onlyTickets_numberDrawn r res s
  split
  · split
    · exact known.trans ((onlyTickets_pushReport _ _).trans (onlyTickets_leaveList _ _))
    · exact known.trans (onlyTickets_putRecord _ _)
  · exact known.trans (onlyTickets_leaveList _ _)

theorem onlyTickets_createRecord (f : TicketFields) (s : State) : OnlyTickets s (createRecord f s) := by
  unfold createRecord
  simp only
  split
  · exact onlyTickets_placeRecord _ s
  · exact (onlyTickets_placeRecord _ s).trans (onlyTickets_fixResolution _ _ _)

theorem onlyTickets_makeSourceRecord (l : Line) (s : State) : OnlyTickets s (makeSourceRecord l s) :=
  (onlyTickets_setEntry l { entryAt s l with state := .live (nextTag s) false } s rfl rfl rfl).trans (onlyTickets_createRecord _ _)

theorem onlyTickets_serveSource (l : Line) (s : State) : OnlyTickets s (serveSource l s) := by
  unfold serveSource
  split
  · exact onlyTickets_makeSourceRecord l s
  · exact .refl s

theorem onlyTickets_serveWaiting (n : Nat) (s : State) : OnlyTickets s (serveWaiting n s) := by
  induction n generalizing s with
  | zero => exact .refl s
  | succ n ih =>
    unfold serveWaiting
    split
    · exact .refl s
    · split
      · exact (onlyTickets_makeSourceRecord _ s).trans (ih _)
      · exact .refl s

theorem onlyTickets_serveSources (s : State) : OnlyTickets s (serveSources s) := onlyTickets_serveWaiting 8 s

theorem onlyTickets_placeFreed (source : Source) (s : State) : OnlyTickets s (placeFreed source s) := by
  unfold placeFreed
  split
  · exact onlyTickets_serveSources s
  · exact (onlyTickets_serveSource _ s).trans (onlyTickets_serveSources _)

theorem onlyTickets_resolveRecord (r : OutRecord) (res : Resolution) (s : State) :
    OnlyTickets s (resolveRecord r res s) := by
  unfold resolveRecord
  split
  · exact (onlyTickets_fixResolution r res s).trans (onlyTickets_placeFreed _ _)
  · exact onlyTickets_fixResolution r res s

theorem onlyTickets_createAndServe (f : TicketFields) (s : State) : OnlyTickets s (createAndServe f s) :=
  (onlyTickets_createRecord f s).trans (onlyTickets_serveSources _)

theorem onlyTickets_lapse (r : OutRecord) (s : State) : OnlyTickets s (lapse r s) := by
  unfold lapse
  split
  · exact onlyTickets_putRecord _ s
  · exact onlyTickets_resolveRecord _ _ s

theorem onlyTickets_forRecords (tags : List Tag) (act : OutRecord → State → State)
    (h : ∀ r s, OnlyTickets s (act r s)) (s : State) : OnlyTickets s (forRecords tags act s) := by
  unfold forRecords
  induction tags generalizing s with
  | nil => exact .refl s
  | cons tag tags ih =>
    rw [List.foldl_cons]
    refine OnlyTickets.trans ?_ (ih _)
    split
    · exact h _ s
    · exact .refl s

theorem onlyTickets_orphan (peer : StationNumber) (s : State) : OnlyTickets s (orphan peer s) :=
  onlyTickets_forRecords _ _ onlyTickets_lapse s

theorem onlyTickets_returnAccepted (r : OutRecord) (s : State) : OnlyTickets s (returnAccepted r s) := by
  unfold returnAccepted
  simp only
  split
  · exact onlyTickets_putRecord _ s
  · exact onlyTickets_resolveRecord _ _ s

theorem onlyTickets_noticeAccepted (kind : NoticeKind) (sender : StationNumber) (r : OutRecord) (s : State) :
    OnlyTickets s (noticeAccepted kind sender r s) := by
  unfold noticeAccepted
  split
  · exact onlyTickets_resolveRecord _ _ s
  · split
    · exact onlyTickets_resolveRecord _ _ s
    · exact onlyTickets_returnAccepted r s

theorem onlyTickets_withdrawUnoffered (s : State) : OnlyTickets s (withdrawUnoffered s) :=
  onlyTickets_forRecords _ _ (fun r => onlyTickets_resolveRecord r .withdrawn) s

theorem onlyTickets_withdrawRemaining (s : State) : OnlyTickets s (withdrawRemaining s) :=
  onlyTickets_forRecords _ _ (fun r => onlyTickets_resolveRecord r .withdrawn) s

theorem onlyTickets_offerDecided (r : OutRecord) (c : Bool) (fate : OfferFate) (s : State) :
    OnlyTickets s (offerDecided r c fate s) := by
  have counted : OnlyTickets s (attemptCounted r s) := by
    unfold attemptCounted
    simp only
    split
    · split <;> exact onlyTickets_putRecord _ s
    · exact onlyTickets_resolveRecord _ _ s
  unfold offerDecided
  split
  · exact onlyTickets_resolveRecord _ _ s
  · split
    · split
      · exact onlyTickets_resolveRecord _ _ s
      · split
        · exact onlyTickets_putRecord _ s
        · exact onlyTickets_resolveRecord _ _ s
    · split
      · split
        · exact onlyTickets_putRecord _ s
        · exact counted
      all_goals exact onlyTickets_putRecord _ s

/-- The drain test writes station control only (R56). -/
theorem testDrain_control (s : State) : (testDrain s).control = drainTested s s := by
  unfold testDrain drainTested
  split <;> simp_all

theorem testDrain_eq (s : State) : testDrain s = { s with control := (testDrain s).control } := by
  unfold testDrain
  split <;> rfl

/-- The drain test looks at the collections only. -/
theorem drainComplete_congr {s t : State} (w : t.work = s.work) (r : t.offer.records = s.offer.records) :
    drainComplete t = drainComplete s := by
  unfold drainComplete; rw [w, r]

/-- What is written to the port, the bus unit, station control and the claim unit beside the tickets. -/
theorem OnlyTickets.beside {s t : State} (h : OnlyTickets s t) (b : BusUnit) (c : StationControl) (k : ClaimUnit)
    (p : LocalPort) :
    OnlyTickets { s with bus := b, control := c, claim := k, port := p }
      { t with bus := b, control := c, claim := k, port := p } :=
  ⟨rfl, rfl, rfl, h.work, rfl, h.held, h.pending, h.inputs, h.freeDrawn, h.tickCount, h.masks, h.reports, h.numbers⟩

/-- A ticket operation, the drain test, and a response. -/
theorem ticketsThenDrain_respond {s t : State} (h : OnlyTickets s t) (code : ResponseCode) (bytes : List Byte) :
    TicketsThenDrain s (respond code bytes (testDrain t)) := by
  have e := testDrain_eq t
  have c : (testDrain t).control = drainTested s t := by
    rw [testDrain_control]; unfold drainTested; rw [h.control]
  refine ⟨?_, ?_⟩
  · have := h.beside s.bus (testDrain t).control s.claim (respond code bytes t).port
    rw [e]
    rw [← h.bus, ← h.claim] at this
    simpa [h.bus, h.claim, respond] using this
  · rw [respond_control, c]
    unfold drainTested
    rw [show drainComplete (respond code bytes (testDrain t)) = drainComplete t from
      drainComplete_congr (by rw [e]; rfl) (by rw [e]; rfl)]

theorem ticketsThenDrain_testDrain {s t : State} (h : OnlyTickets s t) : TicketsThenDrain s (testDrain t) := by
  have e := testDrain_eq t
  have c : (testDrain t).control = drainTested s t := by
    rw [testDrain_control]; unfold drainTested; rw [h.control]
  refine ⟨?_, ?_⟩
  · have := h.beside s.bus (testDrain t).control s.claim t.port
    rw [e]
    rw [← h.bus, ← h.claim] at this
    simpa [h.bus, h.claim] using this
  · rw [c]
    unfold drainTested
    rw [show drainComplete (testDrain t) = drainComplete t from drainComplete_congr (by rw [e]) (by rw [e])]

end Sys2Proof.Machine
end

