-- ==== Sys2Proof/Laws/Commands.lean ====
section
/-! SUPPORT. Every command in one form: held, it does nothing; running, it answers the next state that its meaning's plain
function gives. -/

namespace Sys2Proof.Machine

theorem running_of_run {s : State} (h : s.held = false) (f : State → State) : running s f = .next (f s) := by
  simp [running, h]

theorem running_of_held {s : State} (h : s.held = true) (f : State → State) : running s f = .next s := by
  simp [running, h]

/-- What each command does to a running state. -/
def effect : Instr → State → State
  | .resetAssert => hold
  | .resetRelease straps => release straps
  | .configWrite g f v => writeConfig g f v
  | .configRead g f => readConfig g f
  | .join => joinCommand
  | .drain => drainCommand
  | .restart => restartCommand
  | .submit c l p set a => submitCommand c l p set a
  | .cancel tag => cancelCommand tag
  | .query tag => queryCommand tag
  | .take => takeCommand
  | .finish i o => finishCommand i o
  | .handBack i => handBackCommand i
  | .report => reportCommand
  | .status => statusCommand
  | .mask e v => maskCommand e v
  | .touch a => touchCommand a
  | .forget => forgetCommand
  | .roster => rosterCommand
  | .unknownCommandByte _ => answer .param
  | .transactionDiscarded => discardTransaction
  | .lineBecomesActive l => lineActivated l
  | .lineBecomesInactive l => lineInactivated l
  | .deadlineTick => tick
  | .backoffExpiry tag => backoffExpired tag
  | .deadlineExpiry tag => deadlineExpired tag
  | .drainLimitExpiry => drainLimitExpired
  | .synchronisationQuiet => quietSeen
  | .unreadableKind _ => whenReceiving loseSynchronisation
  | .frameStart => fun s => if freeToStart s then testDrain (chooseFrame { s with claim.offerInHand := none }) else s
  | .offerValidated o => fromStation o.sender fun s => { s with claim.offerInHand := some (decideOffer o s) }
  | .claimAsRead bid claimant confirm => whenReceiving (claimRead bid claimant confirm)
  | .noticeReceived n => fromStation n.sender fun s => if n.target = s.control.number then noticeAnswered n s else s
  | .noticeSenderLearned sender => fromStation sender fun s => setAnswer .none (addToRoster sender s)
  | .joinAnswer sender => fromStation sender fun s =>
      setAnswer (if s.control.state.answers then .join true (sender == s.control.number) else .none) s
  | .joinReceived sender resumed clash => fromStation sender fun s => joinRead sender resumed clash (setAnswer .none s)
  | .leaveReceived sender => fromStation sender fun s =>
      leaveRead sender (setAnswer (if s.control.state.sends then .acknowledge else .none) s)
  | .offerFrameEnd fate => offerFrameEnded fate
  | .noticeFrameFate fate => noticeFrameEnded fate
  | .joinFrameEnd fate => joinFrameEnded fate
  | .leaveFrameEnd fate => leaveFrameEnded fate
  | .checkFoundBad => whenReceiving fun s => setAnswer (if s.control.state.sends then .void else .none) s

/-- The two commands that act in reset too. -/
def isReset : Instr → Bool
  | .resetAssert => true
  | .resetRelease _ => true
  | _ => false

theorem exec_of_run {s : State} (h : s.held = false) (c : Instr) : exec c s = .next (effect c s) := by
  cases c <;> first | rfl | exact running_of_run h _

theorem exec_of_held {s : State} (h : s.held = true) {c : Instr} (hc : isReset c = false) : exec c s = .next s := by
  cases c <;> first | exact running_of_held h _ | exact Bool.noConfusion hc

theorem exec_reset {c : Instr} (hc : isReset c = true) (s : State) : exec c s = .next (effect c s) := by
  cases c <;> first | rfl | exact Bool.noConfusion hc

theorem exec_next (c : Instr) (s : State) : ∃ t, exec c s = .next t ∧ (t = s ∨ t = effect c s) := by
  by_cases hc : isReset c = true
  · exact ⟨_, exec_reset hc s, .inr rfl⟩
  · by_cases h : s.held = true
    · exact ⟨_, exec_of_held h (by simpa using hc), .inl rfl⟩
    · exact ⟨_, exec_of_run (by simpa using h) c, .inr rfl⟩

end Sys2Proof.Machine
end

