-- ==== Sys2Proof/Laws/Copies.lean ====
section
/-! SUPPORT. The work unit's copies: what freeing, writing, ending and handing a copy touches, and that no two held notices name
one copy (R143). -/

namespace Sys2Proof.Machine

/-! ### What an operation on copies touches -/

@[simp] theorem freeCopy_slot (i : Fin 8) (s : State) : freeCopy (.slot i) s = setSlot i none s := rfl

@[simp] theorem freeCopy_inbound (o : StationNumber) (tag : Tag) (s : State) :
    freeCopy (.inbound o tag) s = setInbound (s.work.inbound.filter fun r => !isCopy o tag r) s := rfl

/-- Freeing a copy writes the collections of the work unit only. -/
theorem freeCopy_eq (ref : CopyRef) (s : State) :
    freeCopy ref s = { s with work := { s.work with
      inbound := (freeCopy ref s).work.inbound, slots := (freeCopy ref s).work.slots } } := by
  cases ref <;> rfl

/-- So does writing a notice back. -/
theorem writeNotice_eq (n : HeldNotice) (s : State) :
    writeNotice n s = { s with work := { s.work with
      inbound := (writeNotice n s).work.inbound, slots := (writeNotice n s).work.slots } } := by
  unfold writeNotice
  split
  · split <;> rfl
  · rfl

theorem onlyTickets_freeCopy (ref : CopyRef) (s : State) :
    OnlyTickets { s with work := (freeCopy ref s).work } (freeCopy ref s) := by
  rw [freeCopy_eq]; exact .refl _

theorem onlyTickets_writeNotice (n : HeldNotice) (s : State) :
    OnlyTickets { s with work := (writeNotice n s).work } (writeNotice n s) := by
  rw [writeNotice_eq]; exact .refl _

/-- What only the tickets did beside one work unit, they do beside another. -/
theorem OnlyTickets.withWork {s t : State} (h : OnlyTickets s t) (w : WorkUnit) :
    OnlyTickets { s with work := w } { t with work := w } :=
  ⟨h.bus, h.control, h.claim, rfl, h.port, h.held, h.pending, h.inputs, h.freeDrawn, h.tickCount, h.masks, h.reports,
    h.numbers⟩

theorem OnlyTickets.thenWork {s t u : State} (h : OnlyTickets { s with work := t.work } t)
    (k : OnlyTickets { t with work := u.work } u) : OnlyTickets { s with work := u.work } u :=
  (h.withWork u.work).trans k

theorem onlyTickets_endCopy (n : HeldNotice) (how : CopyEnd) (s : State) :
    OnlyTickets { s with work := (endCopy n how s).work } (endCopy n how s) := by
  unfold endCopy
  split
  · refine OnlyTickets.thenWork (t := pushReport (copyReport n how) (countResolution s)) ?_ (onlyTickets_freeCopy _ _)
    exact (onlyTickets_countResolution s).trans (onlyTickets_pushReport _ _)
  · exact OnlyTickets.thenWork (t := countResolution s) (onlyTickets_countResolution s) (onlyTickets_writeNotice _ _)

theorem onlyTickets_handSelfNotice (n : HeldNotice) (s : State) :
    OnlyTickets { s with work := (handSelfNotice n s).work } (handSelfNotice n s) := by
  unfold handSelfNotice
  split
  · rename_i r _
    refine OnlyTickets.thenWork (t := noticeAccepted n.kind s.control.number r s) ?_ (onlyTickets_freeCopy _ _)
    have h := onlyTickets_noticeAccepted n.kind s.control.number r s
    have := h.withWork (noticeAccepted n.kind s.control.number r s).work
    exact this
  · exact onlyTickets_endCopy n .stale s

theorem onlyTickets_handIfSelf (ref : CopyRef) (s : State) :
    OnlyTickets { s with work := (handIfSelf ref s).work } (handIfSelf ref s) := by
  unfold handIfSelf
  split
  · split
    · exact onlyTickets_handSelfNotice _ s
    · exact .refl s
  · exact .refl s

theorem onlyTickets_handAll (refs : List CopyRef) (s : State) :
    OnlyTickets { s with work := (refs.foldl (fun t ref => handIfSelf ref t) s).work }
      (refs.foldl (fun t ref => handIfSelf ref t) s) := by
  induction refs generalizing s with
  | nil => exact .refl s
  | cons ref refs ih => exact OnlyTickets.thenWork (onlyTickets_handIfSelf ref s) (ih _)

theorem onlyTickets_handSelfNotices (s : State) :
    OnlyTickets { s with work := (handSelfNotices s).work } (handSelfNotices s) := onlyTickets_handAll _ s

theorem onlyTickets_handSelfReturns (turned : List InRecord) (s : State) :
    OnlyTickets { s with work := (handSelfReturns turned s).work } (handSelfReturns turned s) := by
  unfold handSelfReturns
  rw [← List.foldl_map (f := fun r : InRecord => CopyRef.inbound r.originator r.tag)
    (g := fun t ref => handIfSelf ref t)]
  exact onlyTickets_handAll _ s

/-! ### Held notices -/

theorem mem_heldNotices_slot {s : State} {i : Fin 8} {n : HeldNotice} (h : n ∈ heldNotices s) (r : n.ref = .slot i) :
    ∃ e, s.work.slots.get i = some e ∧ slotNotice i e = some n := by
  unfold heldNotices at h
  rcases List.mem_append.1 h with h | h
  · obtain ⟨j, _, hj⟩ := List.mem_filterMap.1 h
    obtain ⟨e, he, hn⟩ := Option.bind_eq_some_iff.1 hj
    have : n.ref = .slot j := by
      unfold slotNotice at hn
      split at hn
      · cases hn
      · cases hn; rfl
    rw [r] at this
    cases this
    exact ⟨e, he, hn⟩
  · obtain ⟨x, _, hn⟩ := List.mem_filterMap.1 h
    unfold inboundNotice at hn
    split at hn
    · cases hn
    · cases hn; cases r

theorem mem_heldNotices_inbound {s : State} {o : StationNumber} {tag : Tag} {n : HeldNotice} (h : n ∈ heldNotices s)
    (r : n.ref = .inbound o tag) : ∃ x ∈ s.work.inbound, x.originator = o ∧ x.tag = tag ∧ inboundNotice x = some n := by
  unfold heldNotices at h
  rcases List.mem_append.1 h with h | h
  · obtain ⟨j, _, hj⟩ := List.mem_filterMap.1 h
    obtain ⟨e, _, hn⟩ := Option.bind_eq_some_iff.1 hj
    unfold slotNotice at hn
    split at hn
    · cases hn
    · cases hn; cases r
  · obtain ⟨x, hx, hn⟩ := List.mem_filterMap.1 h
    refine ⟨x, hx, ?_⟩
    have : n.ref = .inbound x.originator x.tag := by
      unfold inboundNotice at hn
      split at hn
      · cases hn
      · cases hn; rfl
    rw [r] at this
    cases this
    exact ⟨rfl, rfl, hn⟩

/-- In a list with no ticket twice, the record of a ticket is the one found. -/
theorem inbound_inj {q : List InRecord} (nd : (q.map fun r => (r.originator, r.tag)).Nodup) {a b : InRecord} (ha : a ∈ q)
    (hb : b ∈ q) (o : a.originator = b.originator) (t : a.tag = b.tag) : a = b :=
  List.inj_on_of_nodup_map nd ha hb (Prod.ext o t)

theorem copies_inbound_nodup {s : State} (nd : s.copies.Nodup) :
    (s.work.inbound.map fun r => (r.originator, r.tag)).Nodup := (List.nodup_append.1 nd).1

/-- No two held notices name one copy. -/
theorem heldNotices_inj {s : State} (nd : s.copies.Nodup) {a b : HeldNotice} (ha : a ∈ heldNotices s)
    (hb : b ∈ heldNotices s) (r : a.ref = b.ref) : a = b := by
  cases hr : a.ref with
  | slot i =>
    obtain ⟨e, he, hn⟩ := mem_heldNotices_slot ha hr
    obtain ⟨e', he', hn'⟩ := mem_heldNotices_slot hb (r ▸ hr)
    rw [he] at he'
    cases he'
    exact Option.some_inj.1 (hn.symm.trans hn')
  | inbound o t =>
    obtain ⟨x, hx, ho, ht, hn⟩ := mem_heldNotices_inbound ha hr
    obtain ⟨x', hx', ho', ht', hn'⟩ := mem_heldNotices_inbound hb (r ▸ hr)
    have := inbound_inj (copies_inbound_nodup nd) hx hx' (ho.trans ho'.symm) (ht.trans ht'.symm)
    subst this
    exact Option.some_inj.1 (hn.symm.trans hn')

/-- The notice of a copy is the one found. -/
theorem findNotice_of_mem {s : State} (nd : s.copies.Nodup) {n : HeldNotice} (h : n ∈ heldNotices s) :
    findNotice n.ref s = some n := by
  unfold findNotice
  cases hf : (heldNotices s).find? fun m => m.ref == n.ref with
  | none =>
    have := List.find?_eq_none.1 hf n h
    simp at this
  | some m =>
    have hm := List.mem_of_find?_eq_some hf
    have hr := List.find?_some hf
    rw [heldNotices_inj nd hm h (by simpa using hr)]

/-! ### Order of the inbound queue (R142) -/

theorem queueBefore_iff {a b : InRecord} : queueBefore a b = true ↔
    a.level.toNat < b.level.toNat ∨ (a.level.toNat = b.level.toNat ∧ a.claimSequence < b.claimSequence) := by
  unfold queueBefore
  simp only [Bool.or_eq_true, decide_eq_true_eq, Bool.and_eq_true, beq_iff_eq, BitVec.lt_def, BitVec.toNat_inj]

theorem queueBefore_trans {a b c : InRecord} (h : queueBefore a b = true) (k : queueBefore b c = true) :
    queueBefore a c = true := by
  rw [queueBefore_iff] at *
  omega

/-- Two records with different claim sequence numbers stand in one order or the other. -/
theorem queueBefore_total {a b : InRecord} (h : a.claimSequence ≠ b.claimSequence) :
    queueBefore a b = true ∨ queueBefore b a = true := by
  rw [queueBefore_iff, queueBefore_iff]
  omega

/-- A record is put between those before which it does not stand and the others. -/
theorem insertInbound_split (r : InRecord) (q : List InRecord) :
    ∃ before after, q = before ++ after ∧ insertInbound r q = before ++ r :: after ∧
      (∀ x ∈ before, queueBefore r x = false) ∧ ∀ x ∈ after.head?, queueBefore r x = true := by
  induction q with
  | nil => exact ⟨[], [], rfl, rfl, by simp, by simp⟩
  | cons x q ih =>
    unfold insertInbound
    by_cases h : queueBefore r x = true
    · exact ⟨[], x :: q, rfl, by simp [h], by simp, by simp [h]⟩
    · obtain ⟨b, a, hq, hi, hb, ha⟩ := ih
      exact ⟨x :: b, a, by simp [hq], by simp [h, hi], by simpa [h] using hb, ha⟩

theorem insertInbound_perm (r : InRecord) (q : List InRecord) : (insertInbound r q).Perm (r :: q) := by
  obtain ⟨b, a, hq, hi, _, _⟩ := insertInbound_split r q
  rw [hi, hq]
  exact List.perm_middle

/-- A record with a claim sequence number of its own keeps the queue in order. -/
theorem insertInbound_sorted {r : InRecord} {q : List InRecord} (sorted : q.Pairwise fun a b => queueBefore a b = true)
    (own : ∀ x ∈ q, x.claimSequence ≠ r.claimSequence) :
    (insertInbound r q).Pairwise fun a b => queueBefore a b = true := by
  obtain ⟨b, a, hq, hi, hb, ha⟩ := insertInbound_split r q
  rw [hi]
  rw [hq] at sorted own
  obtain ⟨sb, sa, sba⟩ := List.pairwise_append.1 sorted
  have after : ∀ x ∈ a, queueBefore r x = true := by
    cases a with
    | nil => simp
    | cons y a =>
      have hy : queueBefore r y = true := ha y (by simp)
      intro x hx
      rcases List.mem_cons.1 hx with hx | hx
      · exact hx ▸ hy
      · exact queueBefore_trans hy ((List.pairwise_cons.1 sa).1 x hx)
  refine List.pairwise_append.2 ⟨sb, List.pairwise_cons.2 ⟨after, sa⟩, fun x hx y hy => ?_⟩
  rcases List.mem_cons.1 hy with hy | hy
  · subst hy
    have := hb x hx
    rcases queueBefore_total (own x (List.mem_append_left _ hx)) with h | h
    · exact h
    · rw [h] at this; cases this
  · exact sba x hx y hy

end Sys2Proof.Machine
end

