-- ==== Sys2Proof/Laws/PerInstr.lean ====
section
/-! SUPPORT. The family `PortForm`, said of each command: the bytes that the processor sends for it are a command byte and the
parameter bytes that section 12.2 gives that byte, none for a byte that names no command (R174, R177, R194). -/

namespace Sys2Proof.Laws.PortForm

/-- The command byte, and its count of parameter bytes. -/
def Statement (c : Instr) : Prop :=
  c.wellFormed = true → ∀ bytes, portBytes c = some bytes →
    ∃ command params, bytes = command :: params ∧ (namesCommand command = (paramCount command).isSome) ∧
      (paramCount command).getD 0 = params.length

theorem of_no_bytes {c : Instr} (h : portBytes c = none) : Statement c := by
  intro _ bytes hb
  rw [h] at hb
  cases hb

theorem resetAssert : Statement .resetAssert := of_no_bytes rfl

theorem resetRelease (straps : StationNumber) : Statement (.resetRelease straps) := of_no_bytes rfl

theorem configWrite (group field : Byte) (value : BitVec 40) : Statement (.configWrite group field value) := by
  intro _ bytes h
  cases h
  exact ⟨_, _, rfl, rfl, rfl⟩

theorem configRead (group field : Byte) : Statement (.configRead group field) := by
  intro _ bytes h
  cases h
  exact ⟨_, _, rfl, rfl, rfl⟩

theorem join : Statement .join := by
  intro _ bytes h
  cases h
  exact ⟨_, _, rfl, rfl, rfl⟩

theorem drain : Statement .drain := by
  intro _ bytes h
  cases h
  exact ⟨_, _, rfl, rfl, rfl⟩

theorem restart : Statement .restart := by
  intro _ bytes h
  cases h
  exact ⟨_, _, rfl, rfl, rfl⟩

theorem submit (cls level flag : Byte) (set : BitVec 16) (addr : Address) : Statement (.submit cls level flag set addr) := by
  intro _ bytes h
  cases h
  exact ⟨_, _, rfl, rfl, rfl⟩

theorem cancel (tag : Tag) : Statement (.cancel tag) := by
  intro _ bytes h
  cases h
  exact ⟨_, _, rfl, rfl, rfl⟩

theorem query (tag : Tag) : Statement (.query tag) := by
  intro _ bytes h
  cases h
  exact ⟨_, _, rfl, rfl, rfl⟩

theorem take : Statement .take := by
  intro _ bytes h
  cases h
  exact ⟨_, _, rfl, rfl, rfl⟩

theorem finish (slot outcome : Byte) : Statement (.finish slot outcome) := by
  intro _ bytes h
  cases h
  exact ⟨_, _, rfl, rfl, rfl⟩

theorem handBack (slot : Byte) : Statement (.handBack slot) := by
  intro _ bytes h
  cases h
  exact ⟨_, _, rfl, rfl, rfl⟩

theorem report : Statement .report := by
  intro _ bytes h
  cases h
  exact ⟨_, _, rfl, rfl, rfl⟩

theorem status : Statement .status := by
  intro _ bytes h
  cases h
  exact ⟨_, _, rfl, rfl, rfl⟩

theorem mask (entry value : Byte) : Statement (.mask entry value) := by
  intro _ bytes h
  cases h
  exact ⟨_, _, rfl, rfl, rfl⟩

theorem touch (addr : Address) : Statement (.touch addr) := by
  intro _ bytes h
  cases h
  exact ⟨_, _, rfl, rfl, rfl⟩

theorem forget : Statement .forget := by
  intro _ bytes h
  cases h
  exact ⟨_, _, rfl, rfl, rfl⟩

theorem roster : Statement .roster := by
  intro _ bytes h
  cases h
  exact ⟨_, _, rfl, rfl, rfl⟩

theorem unknownCommandByte (byte : Byte) : Statement (.unknownCommandByte byte) := by
  intro hw bytes h
  cases h
  have table : ∀ b : Byte, namesCommand b = (paramCount b).isSome ∧ (!namesCommand b → (paramCount b).getD 0 = 0) := by
    decide
  exact ⟨_, _, rfl, (table byte).1, (table byte).2 hw⟩

theorem transactionDiscarded : Statement .transactionDiscarded := of_no_bytes rfl

theorem lineBecomesActive (line : Line) : Statement (.lineBecomesActive line) := of_no_bytes rfl

theorem lineBecomesInactive (line : Line) : Statement (.lineBecomesInactive line) := of_no_bytes rfl

theorem deadlineTick : Statement .deadlineTick := of_no_bytes rfl

theorem backoffExpiry (tag : Tag) : Statement (.backoffExpiry tag) := of_no_bytes rfl

theorem deadlineExpiry (tag : Tag) : Statement (.deadlineExpiry tag) := of_no_bytes rfl

theorem drainLimitExpiry : Statement .drainLimitExpiry := of_no_bytes rfl

theorem synchronisationQuiet : Statement .synchronisationQuiet := of_no_bytes rfl

theorem unreadableKind (kind : BitVec 3) : Statement (.unreadableKind kind) := of_no_bytes rfl

theorem frameStart : Statement .frameStart := of_no_bytes rfl

theorem offerValidated (offer : OfferFields) : Statement (.offerValidated offer) := of_no_bytes rfl

theorem claimAsRead (bid : BitVec 6) (claimant : StationNumber) (confirm : Bool) : Statement (.claimAsRead bid claimant confirm) := of_no_bytes rfl

theorem noticeReceived (notice : NoticeFields) : Statement (.noticeReceived notice) := of_no_bytes rfl

theorem noticeSenderLearned (sender : StationNumber) : Statement (.noticeSenderLearned sender) := of_no_bytes rfl

theorem joinAnswer (sender : StationNumber) : Statement (.joinAnswer sender) := of_no_bytes rfl

theorem joinReceived (sender : StationNumber) (resumed clash : Bool) : Statement (.joinReceived sender resumed clash) := of_no_bytes rfl

theorem leaveReceived (sender : StationNumber) : Statement (.leaveReceived sender) := of_no_bytes rfl

theorem offerFrameEnd (fate : OfferFate) : Statement (.offerFrameEnd fate) := of_no_bytes rfl

theorem noticeFrameFate (fate : NoticeFate) : Statement (.noticeFrameFate fate) := of_no_bytes rfl

theorem joinFrameEnd (fate : JoinFate) : Statement (.joinFrameEnd fate) := of_no_bytes rfl

theorem leaveFrameEnd (fate : LeaveFate) : Statement (.leaveFrameEnd fate) := of_no_bytes rfl

theorem checkFoundBad : Statement .checkFoundBad := of_no_bytes rfl

end Sys2Proof.Laws.PortForm
end

