-- ==== Sys2Proof/Laws/Port.lean ====
section
/-! SUPPORT. Numbers over the local port: what is written most significant byte first is read back (R194). -/

namespace Sys2Proof

theorem ofBytes_toBytes_two (n : Nat) (h : n < 65536) : ofBytes (toBytes 2 n) = n := by
  simp only [ofBytes, toBytes, List.range_succ, List.range_zero, List.nil_append, List.cons_append, List.reverse_cons,
    List.reverse_nil, List.map_cons, List.map_nil, List.foldl_cons, List.foldl_nil, BitVec.toNat_ofNat]
  omega

theorem ofBytes_toBytes_four (n : Nat) (h : n < 4294967296) : ofBytes (toBytes 4 n) = n := by
  simp only [ofBytes, toBytes, List.range_succ, List.range_zero, List.nil_append, List.cons_append, List.reverse_cons,
    List.reverse_nil, List.map_cons, List.map_nil, List.foldl_cons, List.foldl_nil, BitVec.toNat_ofNat]
  omega

theorem ofBytes_toBytes_five (n : Nat) (h : n < 1099511627776) : ofBytes (toBytes 5 n) = n := by
  simp only [ofBytes, toBytes, List.range_succ, List.range_zero, List.nil_append, List.cons_append, List.reverse_cons,
    List.reverse_nil, List.map_cons, List.map_nil, List.foldl_cons, List.foldl_nil, BitVec.toNat_ofNat]
  omega

end Sys2Proof
end

