-- ==== Sys2Proof/Laws/Records.lean ====
section
/-! SUPPORT. The outbound list: finding a record by its tag, taking a tag (R80), and the resolution of one record (R93). -/

namespace Sys2Proof.Machine

/-! ### Finding a record -/

theorem findRecord_mem {tag : Tag} {records : List OutRecord} {r : OutRecord} (h : findRecord tag records = some r) :
    r ∈ records ∧ r.tag = tag := by
  unfold findRecord at h
  exact ⟨List.mem_of_find?_eq_some h, by simpa using List.find?_some h⟩

theorem findRecord_none {tag : Tag} {records : List OutRecord} :
    findRecord tag records = none ↔ ∀ r ∈ records, r.tag ≠ tag := by
  simp [findRecord]

/-- With no tag twice, the record that holds a tag is the one found. -/
theorem findRecord_of_mem {records : List OutRecord} (nd : (records.map (·.tag)).Nodup) {r : OutRecord}
    (h : r ∈ records) : findRecord r.tag records = some r := by
  induction records with
  | nil => cases h
  | cons a l ih =>
    simp only [List.map_cons, List.nodup_cons] at nd
    rcases List.mem_cons.1 h with h | h
    · subst h; simp [findRecord]
    · have : a.tag ≠ r.tag := fun e => nd.1 (e ▸ List.mem_map_of_mem h)
      simpa [findRecord, this] using ih nd.2 h

theorem tag_inj {records : List OutRecord} (nd : (records.map (·.tag)).Nodup) {a b : OutRecord} (ha : a ∈ records)
    (hb : b ∈ records) (h : a.tag = b.tag) : a = b :=
  Option.some_inj.1 ((findRecord_of_mem nd ha).symm.trans (h ▸ findRecord_of_mem nd hb))

theorem tagUsed_iff {tag : Tag} {records : List OutRecord} : tagUsed tag records = true ↔ ∃ r ∈ records, r.tag = tag := by
  simp [tagUsed]

theorem mem_dropRecord {tag : Tag} {records : List OutRecord} {r : OutRecord} :
    r ∈ dropRecord tag records ↔ r ∈ records ∧ r.tag ≠ tag := by
  simp [dropRecord]

theorem dropRecord_fresh {tag : Tag} {records : List OutRecord} (h : ∀ r ∈ records, r.tag ≠ tag) :
    dropRecord tag records = records := by
  simpa [dropRecord] using h

/-! ### Taking a tag (R80) -/

/-- The search passes over used tags only, and stops at a free one or after its last step. -/
theorem firstFreeTag_spec (n : Nat) (start : Tag) (records : List OutRecord) :
    ∃ k, k ≤ n ∧ firstFreeTag n start records = start + BitVec.ofNat 8 k ∧
      (∀ j, j < k → tagUsed (start + BitVec.ofNat 8 j) records = true) ∧
      (k < n → tagUsed (start + BitVec.ofNat 8 k) records = false) := by
  induction n generalizing start with
  | zero => exact ⟨0, le_refl 0, by simp [firstFreeTag], by simp, by simp⟩
  | succ n ih =>
    have shift : ∀ k : Nat, start + 1 + BitVec.ofNat 8 k = start + BitVec.ofNat 8 (k + 1) := by
      intro k
      rw [BitVec.ofNat_add, add_assoc, add_comm (BitVec.ofNat 8 k)]
      rfl
    by_cases h : tagUsed start records = true
    · obtain ⟨k, hk, he, hu, hf⟩ := ih (start + 1)
      refine ⟨k + 1, by omega, ?_, ?_, ?_⟩
      · simp only [firstFreeTag, h, if_true, he, shift]
      · intro j hj
        rcases j with _ | j
        · simpa using h
        · rw [← shift]; exact hu j (by omega)
      · intro hlt; rw [← shift]; exact hf (by omega)
    · refine ⟨0, by omega, by simp [firstFreeTag, h], by simp, ?_⟩
      intro _; simpa using h

/-- With a place free, the tag taken is the first free one (R80). -/
theorem nextTag_firstFree {s : State} (room : s.offer.records.length < 32) : FirstFreeTag (nextTag s) s := by
  obtain ⟨k, hk, he, hu, hf⟩ := firstFreeTag_spec 32 s.offer.tagCounter s.offer.records
  have hk' : k < 32 := by
    by_contra hge
    have hk32 : k = 32 := by omega
    subst hk32
    have sub : ((List.range 32).map fun j => s.offer.tagCounter + BitVec.ofNat 8 j) ⊆ s.offer.records.map (·.tag) := by
      intro t ht
      obtain ⟨j, hj, rfl⟩ := List.mem_map.1 ht
      obtain ⟨r, hr, hrt⟩ := tagUsed_iff.1 (hu j (List.mem_range.1 hj))
      exact List.mem_map.2 ⟨r, hr, hrt⟩
    have nd : ((List.range 32).map fun j => s.offer.tagCounter + BitVec.ofNat 8 j).Nodup := by
      refine List.Nodup.map_on ?_ List.nodup_range
      intro x hx y hy hxy
      have := add_left_cancel hxy
      have h2 := congrArg BitVec.toNat this
      simp only [BitVec.toNat_ofNat, List.mem_range] at h2 hx hy
      omega
    have := (nd.subperm sub).length_le
    simp at this
    omega
  refine ⟨?_, k, hk, he, fun j hj => tagUsed_iff.1 (hu j hj)⟩
  intro r hr hrt
  have := hf hk'
  rw [← he] at this
  have used : tagUsed (firstFreeTag 32 s.offer.tagCounter s.offer.records) s.offer.records = true :=
    tagUsed_iff.2 ⟨r, hr, hrt⟩
  simp [used] at this

/-! ### Resolving one record -/

@[simp] theorem releaseSource_offer (source : Source) (s : State) : (releaseSource source s).offer = s.offer := by
  unfold releaseSource; split
  · rfl
  · split <;> rfl

@[simp] theorem releaseSource_reports (source : Source) (s : State) : (releaseSource source s).reports = s.reports := by
  unfold releaseSource; split
  · rfl
  · split <;> rfl

@[simp] theorem holdSource_offer (source : Source) (s : State) : (holdSource source s).offer = s.offer := by
  unfold holdSource; split
  · rfl
  · split <;> rfl

@[simp] theorem holdSource_reports (source : Source) (s : State) : (holdSource source s).reports = s.reports := by
  unfold holdSource; split
  · rfl
  · split <;> rfl

@[simp] theorem leaveList_records (r : OutRecord) (s : State) :
    (leaveList r s).offer.records = dropRecord r.tag s.offer.records := by simp [leaveList]

@[simp] theorem leaveList_tagCounter (r : OutRecord) (s : State) :
    (leaveList r s).offer.tagCounter = s.offer.tagCounter := by simp [leaveList]

@[simp] theorem leaveList_reports (r : OutRecord) (s : State) : (leaveList r s).reports = s.reports := by simp [leaveList]

@[simp] theorem numberDrawn_offer (r : OutRecord) (res : Resolution) (s : State) :
    (numberDrawn r res s).offer = s.offer := by unfold numberDrawn; split <;> simp

@[simp] theorem numberDrawn_reports (r : OutRecord) (res : Resolution) (s : State) :
    (numberDrawn r res s).reports = { s.reports with resolutionCounter := s.reports.resolutionCounter + 1 } := by
  unfold numberDrawn; split <;> simp

@[simp] theorem fixResolution_tagCounter (r : OutRecord) (res : Resolution) (s : State) :
    (fixResolution r res s).offer.tagCounter = s.offer.tagCounter := by
  rw [fixResolution_eq]
  split
  · split <;> simp
  · simp

/-- Steps 1 to 4 of R93 leave the record gone or RESOLVED. -/
theorem fixResolution_resolved (r : OutRecord) (res : Resolution) (s : State) :
    ResolvedIn r res s (fixResolution r res s) := by
  rw [fixResolution_eq]
  unfold ResolvedIn reportRoom Config.maxReports
  by_cases hf : (classOf s r.cls).report = true <;> by_cases hr : s.reports.queue.length < 16 <;> simp [hf, hr]

/-- What is added to a later state cannot undo a resolution that did not wait. -/
theorem ResolvedIn.grow {r : OutRecord} {res : Resolution} {s t u : State} (h : ResolvedIn r res s t)
    (q : t.reports.queue <+: u.reports.queue) (n : t.reports.resolutionCounter ≤ u.reports.resolutionCounter)
    (o : t.offer.records <+: u.offer.records) (now : leavesAtOnce r s = true) : ResolvedIn r res s u := by
  unfold ResolvedIn at h ⊢
  refine ⟨lt_of_lt_of_le h.1 n, ?_⟩
  unfold leavesAtOnce reportRoom Config.maxReports at now
  have h2 := h.2
  by_cases hf : (classOf s r.cls).report = true
  · by_cases hr : s.reports.queue.length < 16
    · simp only [hf, hr, if_true] at h2 ⊢
      exact ⟨h2.1.trans q, h2.2.trans o⟩
    · simp [hf, hr] at now
  · simp only [hf] at h2 ⊢
    exact ⟨h2.1.trans q, h2.2.trans o⟩

/-! ### Making records in free places -/

theorem placeRecord_records (r : OutRecord) (s : State) :
    (placeRecord r s).offer.records = s.offer.records ++ [r] := rfl

/-- A creation keeps the records that were there, in their places, whatever becomes of its own (R77, R81). -/
theorem createRecord_keeps (f : TicketFields) {s : State} (room : s.offer.records.length < 32) :
    s.offer.records <+: (createRecord f s).offer.records := by
  have fresh := (nextTag_firstFree room).1
  unfold createRecord
  simp only
  split
  · exact List.prefix_append _ _
  · rw [fixResolution_eq]
    have drop : dropRecord (nextTag s) (s.offer.records ++ [newRecord f s]) = s.offer.records := by
      have : dropRecord (nextTag s) (s.offer.records ++ [newRecord f s]) =
          dropRecord (nextTag s) s.offer.records ++ dropRecord (nextTag s) [newRecord f s] := List.filter_append ..
      rw [this, dropRecord_fresh fresh]
      simp [dropRecord, newRecord]
    have tagNew : (newRecord f s).tag = nextTag s := rfl
    split
    · split
      · simp [tagNew, drop]
      · simp only [putRecord_offer, numberDrawn_offer, placeRecord_offer, List.map_append]
        have : (s.offer.records.map fun x => if (x.tag == (newRecord f s).tag) = true then
            { newRecord f s with state := .resolved .noPeer (placeRecord (newRecord f s) s).reports.resolutionCounter }
            else x) = s.offer.records := by
          conv_rhs => rw [← List.map_id s.offer.records]
          refine List.map_congr_left fun x hx => ?_
          have : x.tag ≠ nextTag s := fresh x hx
          simp [tagNew, this]
        rw [this]
        exact List.prefix_append _ _
    · simp [tagNew, drop]

theorem makeSourceRecord_keeps (l : Line) {s : State} (room : s.offer.records.length < 32) :
    s.offer.records <+: (makeSourceRecord l s).offer.records := by
  exact createRecord_keeps (s := setEntry l _ s) _ room

theorem recordRoom_iff {s : State} : recordRoom s = true ↔ s.offer.records.length < 32 :=
  decide_eq_true_iff

theorem serveSource_keeps (l : Line) (s : State) : s.offer.records <+: (serveSource l s).offer.records := by
  unfold serveSource
  split
  · rename_i h
    exact makeSourceRecord_keeps l (recordRoom_iff.1 (by simp_all))
  · exact List.prefix_refl _

theorem serveWaiting_keeps (n : Nat) (s : State) : s.offer.records <+: (serveWaiting n s).offer.records := by
  induction n generalizing s with
  | zero => exact List.prefix_refl _
  | succ n ih =>
    unfold serveWaiting
    split
    · exact List.prefix_refl _
    · split
      · rename_i h
        exact (makeSourceRecord_keeps _ (recordRoom_iff.1 h)).trans (ih _)
      · exact List.prefix_refl _

theorem serveSources_keeps (s : State) : s.offer.records <+: (serveSources s).offer.records := serveWaiting_keeps 8 s

theorem placeFreed_keeps (source : Source) (s : State) : s.offer.records <+: (placeFreed source s).offer.records := by
  unfold placeFreed
  split
  · exact serveSources_keeps s
  · exact (serveSource_keeps _ s).trans (serveSources_keeps _)

/-- The whole of R93 with what the freed place brings: the record is resolved, and nothing else is lost. -/
theorem resolveRecord_resolved (r : OutRecord) (res : Resolution) (s : State) :
    ResolvedIn r res s (resolveRecord r res s) := by
  unfold resolveRecord
  split
  · rename_i now
    exact (fixResolution_resolved r res s).grow (onlyTickets_placeFreed _ _).reports (onlyTickets_placeFreed _ _).numbers
      (placeFreed_keeps _ _) now
  · exact fixResolution_resolved r res s

end Sys2Proof.Machine
end

