-- ==== Sys2Proof/Laws/Sources.lean ====
section
/-! SUPPORT. The source unit's part: what a resolution does to a source entry (R67, R72), what making a line's record does
(R66), and what serving the waiting sources leaves (R71). -/

namespace Sys2Proof.Machine

/-! ### One entry at a time -/

theorem entryAt_releaseSource {source : Source} {k : Line} (h : source ≠ .line k) (s : State) :
    entryAt (releaseSource source s) k = entryAt s k := by
  unfold releaseSource
  split
  · rfl
  · rename_i l
    have hl : l ≠ k := fun e => h (by rw [e])
    split <;> simp [hl]

theorem entryAt_holdSource {source : Source} {k : Line} (h : source ≠ .line k) (s : State) :
    entryAt (holdSource source s) k = entryAt s k := by
  unfold holdSource
  split
  · rfl
  · rename_i l
    have hl : l ≠ k := fun e => h (by rw [e])
    split <;> simp [hl]

theorem entryAt_numberDrawn {r : OutRecord} {k : Line} (h : r.source ≠ .line k) (res : Resolution) (s : State) :
    entryAt (numberDrawn r res s) k = entryAt s k := by
  unfold numberDrawn
  split
  · exact entryAt_holdSource h _
  · rfl

/-- A resolution touches no entry but its record's own. -/
theorem entryAt_fixResolution {r : OutRecord} {k : Line} (h : r.source ≠ .line k) (res : Resolution) (s : State) :
    entryAt (fixResolution r res s) k = entryAt s k := by
  rw [fixResolution_eq]
  split
  · split
    · exact (entryAt_releaseSource h _).trans (entryAt_numberDrawn h res s)
    · exact entryAt_numberDrawn h res s
  · exact (entryAt_releaseSource h _).trans (entryAt_numberDrawn h res s)

theorem entryAt_createRecord {f : TicketFields} {k : Line} (h : f.source ≠ .line k) (s : State) :
    entryAt (createRecord f s) k = entryAt s k := by
  unfold createRecord
  simp only
  split
  · rfl
  · exact entryAt_fixResolution (r := newRecord f s) h _ _

theorem entryAt_makeSourceRecord {l k : Line} (h : l ≠ k) (s : State) :
    entryAt (makeSourceRecord l s) k = entryAt s k := by
  unfold makeSourceRecord
  rw [entryAt_createRecord (by simpa [sourceFields] using h)]
  simp [h]

theorem sources_of_entries {s t : State} (h : ∀ k, entryAt t k = entryAt s k) : t.sources = s.sources :=
  vector_ext h

theorem createRecord_soft_sources {f : TicketFields} (h : f.source = .soft) (s : State) :
    (createRecord f s).sources = s.sources :=
  sources_of_entries fun k => entryAt_createRecord (by simp [h]) s

/-- The lock-time part of the configuration is the same. -/
theorem isLevel_congr {s t : State} (h : t.control = s.control) (l : Line) : isLevel t l = isLevel s l := by
  unfold isLevel; rw [h]

/-- Whether a source waits depends on station control and its entry only. -/
theorem waitingSource_congr {s t : State} {l : Line} (c : t.control = s.control) (e : entryAt t l = entryAt s l) :
    waitingSource t l = waitingSource s l := by
  unfold waitingSource isLevel lineActive; rw [c, e]

/-! ### A record made (R66, R81) -/

theorem createRecord_madeIn (f : TicketFields) (s : State) : MadeIn (newRecord f s) s (createRecord f s) := by
  have tags : (createRecord f s).offer.tagCounter = (newRecord f s).tag + 1 := by
    unfold createRecord; simp only; split
    · rfl
    · rw [fixResolution_tagCounter]; rfl
  refine ⟨tags, ?_⟩
  unfold createRecord
  simp only
  split
  · exact ⟨rfl, rfl⟩
  · exact fixResolution_resolved (newRecord f s) .noPeer (placeRecord (newRecord f s) s)

/-- The entry after its record has been made: LIVE with it, or QUIET again with the record resolved and gone, a level entry's
hold then set (R66, R67, R72). -/
theorem makeSourceRecord_entry (l : Line) (s : State) :
    let e := entryAt s l
    let live : EntryState := .live (nextTag s) false
    (entryAt (makeSourceRecord l s) l = { e with state := live } ∧
        setsMeet (s.control.config.sourceConfig l).dest s.control.roster = true) ∨
      (setsMeet (s.control.config.sourceConfig l).dest s.control.roster = false ∧
        (isLevel s l = true → (entryAt (makeSourceRecord l s) l).hold = true) ∧
        ((entryAt (makeSourceRecord l s) l).state = live ∨ (entryAt (makeSourceRecord l s) l).state = .quiet)) := by
  intro e live
  set s1 := setEntry l { entryAt s l with state := live } s with hs1
  have he1 : entryAt s1 l = { entryAt s l with state := live } := by simp [hs1]
  have heq : makeSourceRecord l s = createRecord (sourceFields s l) s1 := rfl
  by_cases hm : setsMeet (s.control.config.sourceConfig l).dest s.control.roster = true
  · left
    refine ⟨?_, hm⟩
    rw [heq]
    unfold createRecord
    simp only
    rw [if_pos (show setsMeet (newRecord (sourceFields s l) s1).dest s1.control.roster = true from hm)]
    exact he1
  · right
    refine ⟨by simpa using hm, ?_⟩
    rw [heq]
    unfold createRecord
    simp only
    rw [if_neg (show ¬ setsMeet (newRecord (sourceFields s l) s1).dest s1.control.roster = true from hm)]
    set r := newRecord (sourceFields s l) s1 with hr
    have src : r.source = .line l := rfl
    set p := placeRecord r s1 with hp
    have hpe : entryAt p l = { entryAt s l with state := live } := he1
    set k := numberDrawn r .noPeer p with hk
    have lev : isLevel p l = isLevel s l := rfl
    have hke : (entryAt k l).state = live ∧ (isLevel s l = true → (entryAt k l).hold = true) := by
      have : k = holdSource (.line l) (countResolution p) := by simp [hk, numberDrawn, src]
      rw [this]
      unfold holdSource
      simp only
      have lv : isLevel (countResolution p) l = isLevel s l := rfl
      have ce : entryAt (countResolution p) l = { entryAt s l with state := live } := hpe
      rw [lv]
      by_cases h : isLevel s l = true
      · simp [h, ce]
      · simp [h, ce]
    have leave : ∀ u : State, entryAt u l = entryAt k l →
        (isLevel s l = true → (entryAt (leaveList r u) l).hold = true) ∧
          ((entryAt (leaveList r u) l).state = live ∨ (entryAt (leaveList r u) l).state = .quiet) := by
      intro u hu
      set v : State := { u with offer.records := dropRecord r.tag u.offer.records } with hv
      have hv' : entryAt v l = entryAt k l := hu
      have : leaveList r u = setEntry l { entryAt v l with state := .quiet } v := by
        unfold leaveList releaseSource
        rw [src]
        simp only [← hv, hv', hke.1, live]
      rw [this]
      simp only [entryAt_setEntry, if_true, hv']
      exact ⟨hke.2, .inr trivial⟩
    rw [fixResolution_eq]
    split
    · split
      · exact leave _ rfl
      · exact ⟨hke.2, .inl hke.1⟩
    · exact leave _ rfl

/-- After its record is made a source waits no more, and no other's waiting has changed. -/
theorem makeSourceRecord_waiting (l k : Line) (s : State) :
    waitingSource (makeSourceRecord l s) k = if l = k then false else waitingSource s k := by
  have c := (onlyTickets_makeSourceRecord l s).control
  by_cases h : l = k
  · subst h
    simp only [if_true]
    have lev := isLevel_congr c l
    rcases makeSourceRecord_entry l s with ⟨e, _⟩ | ⟨_, hh, hs⟩
    · unfold waitingSource; simp [e]
    · rcases hs with hs | hs
      · unfold waitingSource; simp [hs]
      · unfold waitingSource
        rw [lev]
        by_cases hl : isLevel s l = true
        · simp [hs, hh hl]
        · simp [hs, hl]
  · simp only [h, if_false]
    exact waitingSource_congr c (entryAt_makeSourceRecord h s)

/-! ### Serving the waiting sources (R71) -/

theorem lowestWaiting_none {s : State} : lowestWaiting s = none ↔ ∀ l, waitingSource s l = false := by
  simp [lowestWaiting]

theorem serveWaiting_none {s : State} (h : ∀ l, waitingSource s l = false) (n : Nat) : serveWaiting n s = s := by
  cases n <;> simp [serveWaiting, lowestWaiting_none.2 h]

theorem serveSources_none {s : State} (h : ∀ l, waitingSource s l = false) : serveSources s = s := serveWaiting_none h 8

theorem serveSources_full {s : State} (h : 32 ≤ s.offer.records.length) : serveSources s = s := by
  unfold serveSources serveWaiting
  split
  · rfl
  · rw [if_neg]; rw [recordRoom_iff]; omega

/-- Every waiting source is served, or the list is full. -/
theorem serveWaiting_served (n : Nat) (s : State)
    (few : ((List.finRange 8).filter fun l => waitingSource s l).length ≤ n) :
    (∀ l, waitingSource (serveWaiting n s) l = false) ∨ 32 ≤ (serveWaiting n s).offer.records.length := by
  induction n generalizing s with
  | zero =>
    left
    intro l
    have := List.eq_nil_of_length_eq_zero (Nat.le_zero.1 few)
    simpa [serveWaiting] using (List.filter_eq_nil_iff.1 this) l (List.mem_finRange l)
  | succ n ih =>
    unfold serveWaiting
    split
    · rename_i h; exact .inl (lowestWaiting_none.1 h)
    · rename_i l h
      split
      · refine ih _ ?_
        have hw : waitingSource s l = true := List.find?_some h
        have : ((List.finRange 8).filter fun k => waitingSource (makeSourceRecord l s) k) =
            ((List.finRange 8).filter fun k => waitingSource s k).filter fun k => k ≠ l := by
          rw [List.filter_filter]
          refine List.filter_congr fun k _ => ?_
          rw [makeSourceRecord_waiting]
          by_cases e : l = k
          · simp [e]
          · simp [e, Ne.symm e]
        rw [this]
        have lt := List.length_filter_lt_length_iff_exists (p := fun k => decide (k ≠ l))
          (l := (List.finRange 8).filter fun k => waitingSource s k)
        have := lt.2 ⟨l, by simp [hw], by simp⟩
        omega
      · right
        rename_i h2
        rw [recordRoom_iff] at h2
        omega

theorem serveSources_served (s : State) :
    (∀ l, waitingSource (serveSources s) l = false) ∨ 32 ≤ (serveSources s).offer.records.length := by
  refine serveWaiting_served 8 s ?_
  exact le_trans (List.length_filter_le _ _) (by simp)

end Sys2Proof.Machine
end

