-- ==== Sys2Proof/Tests/Slice0.lean ====
section
/-! SUPPORT. Tests of the model on small states: ill-formed commands refused, the spec's worked examples, and, for every
statement in Certificates/Slice0/Obligations.lean that has hypotheses, a state and operands that meet them (`witness_…`). -/

namespace Sys2Proof.Tests

open Sys2Proof.Machine

set_option Elab.async false

/-! ### Small states -/

/-- The state a command leaves. -/
def run (c : Instr) (s : State) : State :=
  match exec c s with
  | .next t => t
  | _ => s

def runAll (cs : List Instr) (s : State) : State := cs.foldl (fun t c => run c t) s

/-- Accepting, deadline 5, attempt limit 2, re-offer limit 1, affinity used, reported. -/
def cls : ClassEntry :=
  { accept := true, deadline := 5, retry := 1, attemptLimit := 2, reofferLimit := 1, affinityUse := true, report := true }

def silentCls : ClassEntry := { cls with accept := false, reofferLimit := 0, report := false, retry := 0, deadline := 0 }

/-- Even lines edge, odd lines level; lines 0 to 3 name station 1, the others station 9. -/
def lineConfig (l : Line) : SourceConfig :=
  { trigger := if l.val % 2 = 0 then .edge else .level, polarity := .high, cls := 0, level := 4,
    dest := if l.val < 4 then 2 else 512, addr := none, startMasked := false }

/-- Class 1 is silent; every other class is `cls`. -/
def config : Configuration :=
  { classes := (Vector.replicate 32 cls).set 1 silentCls, sources := Vector.ofFn lineConfig,
    station := { StationItems.reset with drainLimit := 3 } }

/-- Station 2 in a state, all collections empty, stations 0, 1 and 2 known. -/
def inState (st : StationState) : State :=
  { State.reset with
    control := { State.reset.control with
      state := st, number := if st = .faultNumber then 15 else 2, config := config, locked := st.started, roster := 7
      joinCandidate := if st = .joining then some false else none }
    bus := { BusUnit.reset with synchronised := st.receives, recessiveRun := 8 }
    sources := Vector.replicate 8 { SourceEntry.reset with masked := false } }

def online : State := inState .online

def draining : State := inState .draining

def rec (tag : Tag) (c : TicketClass) (st : RecordState) : OutRecord :=
  { tag := tag, generation := 0, source := .soft, cls := c, level := 3, dest := 2, addr := none, attempts := 0, state := st }

def withRecords (l : List OutRecord) (s : State) : State := { s with offer.records := l }

def fullList : List OutRecord := (List.range 32).map fun n => rec (BitVec.ofNat 8 n) 0 (.outstanding 1 none)

def aReport : Report :=
  { kind := .cancelled, tag := 3, cls := 0, source := some .soft, generation := 0, peer := none, outcome := none,
    attempts := none }

def withReports (n : Nat) (s : State) : State := { s with reports.queue := List.replicate n aReport }

def copyOf (o : StationNumber) (tag : Tag) (level : Level) (seq : Nat) (st : InboundState) : InRecord :=
  { originator := o, tag := tag, generation := 0, cls := 0, level := level, dest := 4, addr := some 1060000,
    claimSequence := seq, state := st }

def withInbound (q : List InRecord) (s : State) : State := { s with work.inbound := q, claim.claimCounter := 40 }

def entryOf (o : StationNumber) (tag : Tag) (st : ServiceState) : ServiceEntry :=
  { originator := o, tag := tag, generation := 0, cls := 0, state := st }

def withSlot (i : Fin 8) (e : ServiceEntry) (s : State) : State := setSlot i (some e) s

def withFrame (c : Candidate) (s : State) : State :=
  { s with bus.ownFrame := some { candidate := c, frame := .leave 2, status := .transmitting }, bus.position := some [] }

def withHand (o : OfferFields) (bid : Option (BitVec 6)) (upgrade : Bool) (s : State) : State :=
  { s with claim.offerInHand := some { offer := o, bid := bid, upgrade := upgrade, inClaim := bid.isSome } }

def offerOf (sender : StationNumber) (tag : Tag) (generation : Generation) (dest : StationSet) : OfferFields :=
  { sender := sender, level := 3, tag := tag, generation := generation, cls := 0, dest := dest, addr := some 1060000 }

def noticeOf (word : NoticeWord) (sender : StationNumber) (tag : Tag) (generation : Generation) : NoticeFields :=
  { word := word, sender := sender, target := 2, tag := tag, generation := generation, cls := 0, outcome := 1 }

def lineHigh (l : Line) (s : State) : State := setEntry l { entryAt s l with takenHigh := true } s

def entryIn (l : Line) (st : EntryState) (s : State) : State := setEntry l { entryAt s l with state := st } s

/-- Every kind of record, copy, entry and line ticket at once: an ONLINE station with its own OFFER in flight. -/
def busy : State :=
  withFrame (.offer 12) (entryIn 0 (.live 17 true) (withSlot 0 (entryOf 1 30 .taken) (withSlot 1
    (entryOf 0 31 (.notifying (.done 2) 1 0 none)) (withSlot 2 (entryOf 2 14 .taken)
      (withInbound [copyOf 1 20 2 0 .waiting, copyOf 0 21 2 1 (.returning 0 0 none), copyOf 2 40 3 2 .waiting,
          copyOf 1 41 3 3 .waiting]
        (withRecords
          [rec 10 0 .waiting, rec 11 0 (.backoff 2), rec 12 0 (.offering false), rec 13 0 (.outstanding 1 (some 0)),
           rec 14 0 (.outstanding 2 none), rec 15 0 (.resolved .cancelled 0), rec 16 0 (.backoff 0),
           { rec 17 0 .waiting with source := .line 0, dest := 512, level := 1 }, rec 18 1 .waiting]
          { online with work.noticeCounter := 2, reports.resolutionCounter := 1, offer.tagCounter := 19 }))))))

/-- The same station DRAINING, its drain limit about to run out. -/
def busyDraining : State :=
  { entryIn 0 (.live 17 false) busy with control := { busy.control with state := .draining, drainTimer := some 0 } }

/-! ### Steps on an empty queue -/

def afterStep (s : State) : State :=
  match step s with
  | .next t => t
  | _ => s

/-- The state with these bits of a frame read, the last of them about to be. -/
def reading (bits : List Bool) (s : State) : State :=
  { s with bus.position := some bits.dropLast, inputs := [.bitPeriod (bits.getLast?.getD true) 0] }

/-- What a receiver hands over at the last of these bits. -/
def handed (bits : List Bool) : List Instr := (afterStep (reading bits online)).pending

/-! ### How a witness shows that a state is sound -/

theorem work_of_no_hand {s : State} (empty : s.claim.offerInHand = none)
    (h : s.work.inbound.length ≤ 24 ∧ s.work.inbound.Pairwise (fun a b => queueBefore a b = true) ∧
      (s.work.inbound.map (·.claimSequence)).Nodup ∧ (∀ r ∈ s.work.inbound, r.claimSequence < s.claim.claimCounter) ∧
      s.copies.Nodup) : s.WorkSound :=
  ⟨h.1, h.2.1, h.2.2.1, h.2.2.2.1, h.2.2.2.2, fun x hx => by rw [empty] at hx; cases hx⟩

theorem work_of_hand {s : State} {x : OfferInHand} (held : s.claim.offerInHand = some x)
    (h : s.work.inbound.length ≤ 24 ∧ s.work.inbound.Pairwise (fun a b => queueBefore a b = true) ∧
      (s.work.inbound.map (·.claimSequence)).Nodup ∧ (∀ r ∈ s.work.inbound, r.claimSequence < s.claim.claimCounter) ∧
      s.copies.Nodup)
    (free : x.bid ≠ none → x.upgrade = false →
      s.work.inbound.length < 24 ∧ (x.offer.sender, x.offer.tag) ∉ s.copies) : s.WorkSound :=
  ⟨h.1, h.2.1, h.2.2.1, h.2.2.2.1, h.2.2.2.2, fun y hy => by rw [held] at hy; cases hy; exact free⟩

theorem control_of_frame {s : State} (sent : ∀ f, s.bus.ownFrame = some f → f.candidate.sentIn s)
    (h : (s.control.number = 15 ↔ s.control.state = .faultNumber) ∧
      (s.control.locked = true ↔ s.control.state ≠ .unconfigured ∧ s.control.state ≠ .faultNumber) ∧
      (s.control.locked = true → s.control.config.valid = true) ∧
      (s.control.joinCandidate ≠ none ↔ s.control.state = .joining) ∧
      (s.control.leaveCandidate = true → s.control.state = .draining ∧ s.control.drainTimer = none) ∧
      (s.control.drainTimer ≠ none → s.control.state = .draining) ∧
      (s.control.state.answers = true ∨ s.control.state = .muted → setHas s.control.roster s.control.number = true) ∧
      (s.bus.synchronised = true → s.control.state.receives = true) ∧
      s.bus.errorCount ≤ 39 ∧ (s.control.state.sends = true → s.bus.errorCount ≤ 31)) : s.ControlSound :=
  let ⟨number, locked, valid, join, leave, timer, roster, synchronised, errors⟩ := h
  ⟨number, locked, valid, join, leave, timer, roster, synchronised, sent, errors⟩

theorem busy_lists : busy.ListsSound := by unfold State.ListsSound; decide +kernel

theorem busy_work : busy.WorkSound := work_of_no_hand rfl (by decide +kernel)

theorem busy_control : busy.ControlSound :=
  control_of_frame (fun f hf => by cases hf; rfl) (by decide +kernel)

theorem busy_tickets : busy.TicketsSound := by unfold State.TicketsSound State.EntriesSound; decide +kernel

theorem busy_served : busy.ServedSound := by unfold State.ServedSound; decide +kernel

theorem busy_drain : busy.DrainSound := by unfold State.DrainSound; decide +kernel

theorem busy_sound : busy.Sound := ⟨busy_lists, busy_work, busy_control, busy_tickets, busy_served, busy_drain⟩

theorem busyDraining_lists : busyDraining.ListsSound := by unfold State.ListsSound; decide +kernel

theorem busyDraining_work : busyDraining.WorkSound := work_of_no_hand rfl (by decide +kernel)

theorem online_lists : online.ListsSound := by unfold State.ListsSound; decide +kernel

theorem online_work : online.WorkSound := work_of_no_hand rfl (by decide +kernel)

theorem online_served : online.ServedSound := by unfold State.ServedSound; decide +kernel

theorem online_drain : online.DrainSound := by unfold State.DrainSound; decide +kernel

/-! ### Well-formedness: ill-formed commands are refused -/

theorem test_illFormed_commandByte_named : (Instr.unknownCommandByte 1).wellFormed = false := by decide

theorem test_illFormed_commandByte_last : (Instr.unknownCommandByte 17).wellFormed = false := by decide

theorem test_wellFormed_commandByte : (Instr.unknownCommandByte 0).wellFormed = true ∧
    (Instr.unknownCommandByte 18).wellFormed = true := by decide

theorem test_illFormed_kind : (Instr.unreadableKind 4).wellFormed = false := by decide

theorem test_wellFormed_kind : (Instr.unreadableKind 5).wellFormed = true := by decide

/-! ### Bytes and bits -/

/-- No row of the opcode table has bits. -/
theorem test_decodeTableWord : decodeTableWord 8 3 = none := by decide

/-- SUBMIT as section 12.2 writes it: class 8, level 3, no address, set {2, 7}. -/
theorem test_decodePort_submit :
    decodePort [6, 8, 3, 0, 0, 132, 0, 0, 0, 0] = some (.submit 8 3 0 132 0) := by decide +kernel

theorem test_decodePort_configWrite :
    decodePort [1, 48, 3, 0, 0, 0, 0, 50] = some (.configWrite 48 3 50) := by decide +kernel

theorem test_decodePort_unknown : decodePort [200] = some (.unknownCommandByte 200) := by decide +kernel

/-- An OFFER written out bit by bit: kind 100, level 011, sender 0010, tag 00001001, generation 00, class 01011, the set
{4, 8, 11} with station 14 first and members dominant, no address. -/
theorem test_offer_bits :
    (Frame.offer { sender := 2, level := 3, tag := 9, generation := 0, cls := 11, dest := 2320, addr := none }).body =
      [true, false, false, false, true, true, false, false, true, false, false, false, false, false, true, false, false,
       true, false, false, false, true, false, true, true,
       true, true, true, false, true, true, false, true, true, true, false, true, true, true, true, false] := by
  decide +kernel

/-- A LEAVE of station 5: opening bit, kind 001, level 000, sender 0101. -/
theorem test_leave_bits : (Frame.leave 5).sentBits.take 11 =
    [false, false, false, true, false, false, false, false, true, false, true] := by decide +kernel

/-! ### Reset and configuration -/

theorem test_resetAssert : (run .resetAssert busy).held = true ∧ (run .resetAssert busy).bus.ownFrame = none := by
  decide +kernel

theorem test_resetRelease : (run (.resetRelease 15) busy).control.state = .faultNumber ∧
    (run (.resetRelease 14) busy).control.state = .unconfigured := by decide +kernel

theorem test_configWrite : (run (.configWrite 48 3 50) (inState .unconfigured)).control.config.station.drainLimit = 50 ∧
    (run (.configWrite 48 3 4096) (inState .unconfigured)).port.response = [5] := by decide +kernel

theorem test_configRead : (run (.configRead 48 1) online).port.response = [0, 0, 0, 0, 0, 12] := by decide +kernel

theorem test_join : (run .join (inState .unconfigured)).control.state = .joining ∧
    (run .join (inState .unconfigured)).control.locked = true := by decide +kernel

/-- Example of 5.9, DRAIN with one record on the bus: WAITING and BACKOFF are WITHDRAWN, the others stay. -/
theorem test_drain :
    (run .drain (withRecords [rec 50 0 .waiting, rec 51 0 (.backoff 2), rec 52 0 (.offering false),
        rec 53 0 (.outstanding 9 none), rec 54 0 (.resolved .cancelled 0)] online)).offer.records =
      [rec 52 0 (.offering false), rec 53 0 (.outstanding 9 none), rec 54 0 (.resolved .cancelled 0)] := by decide +kernel

theorem test_drain_empty : (run .drain online).control.leaveCandidate = true ∧
    (run .drain online).control.drainTimer = none := by decide +kernel

theorem test_restart : (run .restart busy).offer.records = [] ∧ (run .restart busy).control.state = .joining := by
  decide +kernel

/-! ### The originator's commands -/

/-- Example of 5.9, tag allocation across the wrap. -/
theorem test_submit_wrap :
    ((runAll [.submit 0 3 0 2 0, .submit 0 3 0 2 0] (withRecords [rec 254 0 .waiting, rec 255 0 .waiting, rec 0 0 .waiting,
        rec 3 0 .waiting] { online with offer.tagCounter := 254 })).offer.records.map (·.tag)) =
      [254, 255, 0, 3, 1, 2] := by decide +kernel

theorem test_submit_noPeer : (run (.submit 0 3 0 512 0) online).reports.queue.map (·.kind) = [.noPeer] ∧
    (run (.submit 0 3 0 512 0) online).offer.records = [] := by decide +kernel

theorem test_cancel : (run (.cancel 10) busy).reports.queue.map (·.kind) = [.cancelled] ∧
    (run (.cancel 12) busy).reports.queue = [] := by decide +kernel

theorem test_query : (run (.query 13) busy).port.response = [0, 3, 0, 0, 1] := by decide +kernel

/-! ### The claimant's commands -/

/-- TAKE: the first WAITING record goes to the lowest empty slot, 3, and block 258 to the front of the table. -/
theorem test_take : (run .take busy).port.response = [0, 3, 1, 20, 0, 0, 2, 1, 0, 16, 44, 160] ∧
    (run .take busy).claim.affinity = [258] := by decide +kernel

theorem test_take_empty : (run .take online).port.response = [1] := by decide +kernel

theorem test_finish : (run (.finish 0 2) busy).work.slots.get 0 =
    some (entryOf 1 30 (.notifying (.done 2) 2 0 none)) := by decide +kernel

/-- A FINISH of the station's own ticket completes it at once (R157). -/
theorem test_finish_own : (run (.finish 2 1) busy).work.slots.get 2 = none ∧
    (run (.finish 2 1) busy).reports.queue.map (·.kind) = [.completed] := by decide +kernel

theorem test_handBack : (run (.handBack 0) busy).work.slots.get 0 = some (entryOf 1 30 (.notifying .ret 2 0 none)) := by
  decide +kernel

theorem test_handBack_own : findRecord 14 (run (.handBack 2) busy).offer.records =
    some { rec 14 0 .waiting with attempts := 1 } := by decide +kernel

/-! ### Reports and reading -/

theorem test_report : (run .report (withReports 1 online)).port.response = [0, 3, 3, 0, 8, 0, 255, 255, 255] := by
  decide +kernel

/-- The place a REPORT frees is taken by the item that waits (R166). -/
theorem test_report_places : (run .report (withReports 16 busy)).reports.queue.length = 16 ∧
    findRecord 15 (run .report (withReports 16 busy)).offer.records = none := by decide +kernel

theorem test_status : (run .status busy).port.response = [0, 2, 0, 2, 0, 9, 4, 3, 0, 0] := by decide +kernel

theorem test_roster : (run .roster online).port.response = [0, 0, 7] := by decide +kernel

/-! ### Local tables -/

theorem test_mask : (entryAt (run (.mask 0 1) busy) 0).state = .live 17 false := by decide +kernel

theorem test_mask_range : (run (.mask 8 1) online).port.response = [5] ∧ (run (.mask 7 2) online).port.response = [5] := by
  decide +kernel

/-- Example of 7.8: TOUCH moves block 40 to the front, and puts block 7 there. -/
theorem test_touch :
    (runAll [.touch 163840, .touch 28672] { online with claim.affinity := [258, 512, 40] }).claim.affinity =
      [7, 40, 258, 512] := by decide +kernel

theorem test_forget : (run .forget { online with claim.affinity := [258] }).claim.affinity = [] := by decide +kernel

theorem test_unknownCommandByte : (run (.unknownCommandByte 0) busy).port.response = [5] := by decide +kernel

theorem test_transactionDiscarded :
    (run .transactionDiscarded { online with port.bytes := [6, 1] }).port.bytes = [] := by decide +kernel

/-! ### Lines and timers -/

/-- Example of 4.11: an edge makes a record; an edge while it is LIVE is latched. -/
theorem test_lineBecomesActive_edge :
    (entryAt (run (.lineBecomesActive 2) { online with offer.tagCounter := 12 }) 2).state = .live 12 false ∧
      (entryAt (runAll [.lineBecomesActive 2, .lineBecomesInactive 2, .lineBecomesActive 2]
        { online with offer.tagCounter := 12 }) 2).state = .live 12 true := by decide +kernel

/-- A level line with no peer: one NO-PEER end, and the hold (R72). -/
theorem test_lineBecomesActive_noPeer : (entryAt (run (.lineBecomesActive 5) online) 5).hold = true ∧
    (run (.lineBecomesActive 5) online).reports.queue.map (·.kind) = [.noPeer] := by decide +kernel

theorem test_lineBecomesInactive :
    (entryAt (runAll [.lineBecomesActive 5, .lineBecomesInactive 5] online) 5).hold = false := by decide +kernel

theorem test_deadlineTick : findRecord 11 (run .deadlineTick busy).offer.records = some (rec 11 0 (.backoff 1)) := by
  decide +kernel

theorem test_backoffExpiry : findRecord 16 (run (.backoffExpiry 16) busy).offer.records = some (rec 16 0 .waiting) ∧
    run (.backoffExpiry 11) busy = busy := by decide +kernel

/-- A lapse below the re-offer limit: generation 1, attempts 0, WAITING (R108). -/
theorem test_deadlineExpiry : findRecord 13 (run (.deadlineExpiry 13) busy).offer.records =
    some { rec 13 0 .waiting with generation := 1 } := by decide +kernel

theorem test_drainLimitExpiry :
    (run .drainLimitExpiry busyDraining).offer.records.map (·.tag) = [11, 12, 15, 16] ∧
      (run .drainLimitExpiry busyDraining).control.drainPassed = true := by decide +kernel

/-! ### The bus -/

theorem test_synchronisationQuiet :
    (run .synchronisationQuiet { online with bus.synchronised := false }).bus.recessiveRun = 110 := by decide +kernel

theorem test_unreadableKind : (run (.unreadableKind 7) online).bus.synchronised = false := by decide +kernel

/-- The lowest level goes first; a NO-PEER end on the way does not stop the choice (R39, R40). -/
theorem test_frameStart :
    ((run .frameStart (withRecords [rec 1 0 .waiting, { rec 2 0 .waiting with level := 0, dest := 512 },
        { rec 3 0 .waiting with level := 1 }] online)).bus.ownFrame.map (·.candidate)) = some (.offer 3) := by
  decide +kernel

theorem test_frameStart_notice :
    ((run .frameStart { busy with bus := online.bus }).bus.ownFrame.map (·.candidate)) = some (.notice (.inbound 0 21)) := by
  decide +kernel

/-- Example of 7.8, a bid: load 0, block not in the table, weight 4, so 0 + 1 + 4; with the block in the table, 1. -/
theorem test_offerValidated :
    ((run (.offerValidated (offerOf 1 9 0 4)) online).claim.offerInHand.map (·.bid)) = some (some 5) ∧
      ((run (.offerValidated (offerOf 1 9 0 4)) { online with claim.affinity := [258] }).claim.offerInHand.map (·.bid)) =
        some (some 1) := by decide +kernel

/-- An upgrade bids 0 (R126). -/
theorem test_offerValidated_upgrade :
    ((run (.offerValidated (offerOf 1 20 1 4)) busy).claim.offerInHand.map (·.bid)) = some (some 0) := by decide +kernel

theorem test_claimAsRead :
    ((runAll [.offerValidated (offerOf 1 9 0 4), .claimAsRead 5 2 true] online).work.inbound.map (·.tag)) = [9] ∧
      (runAll [.offerValidated (offerOf 1 9 0 4), .claimAsRead 5 2 false] online).work.inbound = [] := by decide +kernel

theorem test_noticeReceived : (run (.noticeReceived (noticeOf .done 1 13 0)) busy).bus.answer = .notice true false ∧
    (run (.noticeReceived (noticeOf .done 1 13 1)) busy).bus.answer = .notice true true := by decide +kernel

theorem test_noticeSenderLearned : (run (.noticeSenderLearned 4) online).control.roster = 23 := by decide +kernel

theorem test_joinAnswer : (run (.joinAnswer 2) online).bus.answer = .join true true := by decide +kernel

theorem test_joinReceived : findRecord 13 (run (.joinReceived 1 false false) busy).offer.records =
    some { rec 13 0 .waiting with generation := 1 } ∧
      (run (.joinReceived 2 false false) (inState .muted)).control.state = .faultClash := by decide +kernel

theorem test_leaveReceived : (run (.leaveReceived 1) busy).control.roster = 5 ∧
    (run (.leaveReceived 1) busy).bus.answer = .acknowledge := by decide +kernel

/-! ### The station's own frames -/

/-- Claimed by station 1 with bid 4; unclaimed, one attempt and BACKOFF (R90, R91). -/
theorem test_offerFrameEnd :
    findRecord 12 (run (.offerFrameEnd (.clean 4 1)) busy).offer.records = some (rec 12 0 (.outstanding 1 (some 5))) ∧
      findRecord 12 (run (.offerFrameEnd (.clean 63 15)) busy).offer.records =
        some { rec 12 0 (.backoff 1) with attempts := 1 } := by decide +kernel

/-- Example of 2.8, the error count: 24, then a broken frame mutes the station (R41, R42). -/
theorem test_offerFrameEnd_muted :
    (run (.offerFrameEnd .broken) { busy with bus.errorCount := 24 }).control.state = .muted ∧
      (run (.offerFrameEnd .broken) { busy with bus.errorCount := 23 }).control.state = .online := by decide +kernel

theorem test_noticeFrameFate :
    (run (.noticeFrameFate (.clean true false)) (withFrame (.notice (.slot 1)) busy)).work.slots.get 1 = none ∧
      (run (.noticeFrameFate (.clean true true)) (withFrame (.notice (.slot 1)) busy)).reports.queue.map (·.kind) =
        [.stale] := by decide +kernel

theorem test_joinFrameEnd : (run (.joinFrameEnd (.clean 10 false)) (withFrame .join (inState .joining))).control.roster = 15 ∧
    (run (.joinFrameEnd (.clean 10 true)) (withFrame .join (inState .joining))).control.state = .faultClash := by
  decide +kernel

theorem test_leaveFrameEnd :
    (run (.leaveFrameEnd .clean) (withFrame .leave { draining with control.leaveCandidate := true })).control.state =
      .offline := by decide +kernel

theorem test_checkFoundBad : (run .checkFoundBad online).bus.answer = .void ∧
    (run .checkFoundBad (inState .muted)).bus.answer = .none := by decide +kernel

/-! ### One step -/

theorem test_step_front : step { online with pending := [.forget, .drain] } = exec .forget { online with pending := [.drain] } := rfl

theorem test_withFetchWord : online.withFetchWord 8 3 = online := by decide +kernel

/-! ### Witnesses: the hypotheses of each statement are met -/

theorem witness_StepRunsFrontCommand : ({ online with pending := [.status, .drain] } : State).pending = .status :: [.drain] :=
  rfl

/-- Expiries due, in list order and the drain limit's last; and timers at 1, which are not due. -/
theorem witness_EmptyQueueIdles :
    busyDraining.pending = [] ∧ afterStep busyDraining =
        { busyDraining with pending := [.deadlineExpiry 13, .backoffExpiry 16, .drainLimitExpiry] } ∧
      let s := withRecords [rec 2 0 (.backoff 1), rec 3 0 (.outstanding 1 (some 1))] online
      s.pending = [] ∧ s.inputs = [] ∧ afterStep s = s := by decide +kernel

/-- A bit period while held, in OFFLINE, before and at the quiet, outside a frame with the bus idle, and at a full tick. -/
theorem witness_EmptyQueueIdles_betweenFrames :
    let bit (dbd : Bool) (run : Nat) (s : State) : State :=
      { s with bus.recessiveRun := run, inputs := [.bitPeriod dbd 1], offer.tickCount := 1023 }
    let seeking : State := { online with bus.synchronised := false }
    (afterStep (bit true 8 { online with held := true })).offer.tickCount = 1023 ∧
      (afterStep (bit true 8 (inState .offline))).pending = [.deadlineTick] ∧
      (afterStep (bit true 108 seeking)).pending = [.deadlineTick] ∧
      (afterStep (bit true 109 seeking)).pending = [.synchronisationQuiet, .deadlineTick, .frameStart] ∧
      (afterStep (bit false 8 online)).bus.position = some [false] ∧ (afterStep (bit false 7 online)).bus.position = none ∧
      (afterStep (bit true 7 (setEntry 0 { entryAt online 0 with oppositeSeen := true } online))).pending =
        [.deadlineTick, .lineBecomesActive 0, .frameStart] := by decide +kernel

/-- The hand-over points: the kind's last bit; a good and a bad check; the void slot; and the last bit of each kind. -/
theorem witness_EmptyQueueIdles_insideFrame :
    let leave := (Frame.leave 1).sentBits ++ [true]
    let join := (Frame.join 1 true).sentBits ++ List.replicate 16 true
    let offer := (Frame.offer (offerOf 1 9 0 4)).sentBits ++ [true]
    let notice := (Frame.notice (noticeOf .done 1 13 0)).sentBits ++ [true]
    rxLayout leave = some (layoutOf .leave false) ∧ leave.length = (layoutOf .leave false).void ∧
      handed [false, true, true, true] = [.unreadableKind 7] ∧ handed (leave.take 27) = [] ∧
      handed (leave.take 26 ++ [true]) = [.checkFoundBad] ∧ handed leave = [] ∧
      handed (leave ++ [false]) = [.leaveReceived 1] ∧ handed (join.take 29) = [.joinAnswer 1] ∧
      handed (join ++ [false]) = [.joinReceived 1 true true] ∧ handed offer = [.offerValidated (offerOf 1 9 0 4)] ∧
      handed (offer ++ List.replicate 11 true) = [.claimAsRead 63 15 false] ∧
      handed notice = [.noticeReceived (noticeOf .done 1 13 0)] ∧ handed (notice ++ [true, true]) = [.noticeSenderLearned 1] := by
  decide +kernel

/-- The own LEAVE: lost in the prefix, broken after it, voided; and a bidder that reads dominant while it drives recessive. -/
theorem witness_EmptyQueueIdles_ownFrame :
    let sent := (Frame.leave 2).sentBits
    let own (bits : List Bool) : Option OwnStatus :=
      (afterStep (reading bits (withFrame .leave draining))).bus.ownFrame.map (·.status)
    let claim := (Frame.offer (offerOf 1 9 0 4)).sentBits ++ [true, false]
    own (sent.take 3 ++ [false]) = some .lost ∧ own (sent.take 4) = some .transmitting ∧
      own (sent.take 9 ++ [false]) = some .lost ∧ own (sent.take 26 ++ [!(sent.getLast?.getD true)]) = some .broken ∧
      own (sent ++ [false]) = some .voided ∧ drive (reading claim (withHand (offerOf 1 9 0 4) (some 62) false online)) = true ∧
      (afterStep (reading claim (withHand (offerOf 1 9 0 4) (some 62) false online))).claim.offerInHand.map (·.inClaim) =
        some false := by decide +kernel

/-- What an own frame brings: its claim unit asked, clean, broken and void ends at its own length, and lost at another's end. -/
theorem witness_EmptyQueueIdles_fates :
    let own (c : Candidate) (f : Frame) (status : OwnStatus) (bits : List Bool) : State :=
      afterStep (reading bits { online with bus.ownFrame := some { candidate := c, frame := f, status := status } })
    let o := offerOf 2 12 0 2
    let sent := (Frame.offer o).sentBits
    let notice := (Frame.notice (noticeOf .done 2 13 0)).sentBits
    let other := (Frame.leave 1).sentBits ++ [true, false]
    (own (.offer 12) (.offer o) .transmitting (sent ++ [true])).pending = [.offerValidated o] ∧
      (own (.offer 12) (.offer o) .transmitting (sent ++ [false])).pending = [] ∧
      (own (.offer 12) (.offer o) .transmitting (sent ++ List.replicate 12 true)).pending =
        [.claimAsRead 63 15 false, .offerFrameEnd (.clean 63 15)] ∧
      (own (.offer 12) (.offer o) .broken (sent ++ List.replicate 12 true)).pending = [.offerFrameEnd .broken] ∧
      (own (.notice (.slot 1)) (.notice (noticeOf .done 2 13 0)) .transmitting (notice ++ [true, false, true])).pending =
        [.noticeFrameFate (.clean true false)] ∧
      (own .leave (.leave 2) .voided ((Frame.leave 2).sentBits ++ [false, true])).pending = [.leaveFrameEnd .void] ∧
      (own (.offer 12) (.offer o) .lost other).pending = [.leaveReceived 1, .offerFrameEnd .lost] ∧
      (own (.offer 12) (.offer o) .lost other).bus.position = none := by decide +kernel

/-- SCS# and SCK: a transaction begun, filled, complete with its last bit, and ended; and SCK outside one. -/
theorem witness_EmptyQueueIdles_port :
    let pin (x : PinInput) (s : State) : State := { s with inputs := [x] }
    let begun := afterStep (pin .scsFall online)
    let seven : State := { begun with port.bits := [false, false, false, true, false, false, false] }
    let whole := afterStep (pin (.sck true) seven)
    begun.port.active = true ∧ (afterStep (pin (.sck true) begun)).port.bits = [true] ∧ whole.pending = [.roster] ∧
      whole.port.taken = true ∧ (afterStep (pin .scsRise seven)).pending = [.transactionDiscarded] ∧
      (afterStep (pin (.sck true) online)).port = online.port ∧
      (afterStep (pin (.sck true) { whole with pending := [] })).port.shifted = 1 ∧
      (afterStep (pin .scsFall { online with held := true })).port.active = false := by decide +kernel

theorem witness_HeldStationIgnoresCommands : ({ busy with held := true } : State).held = true ∧
    Instr.offerFrameEnd .lost ≠ .resetAssert ∧ ∀ straps, Instr.offerFrameEnd .lost ≠ .resetRelease straps := by
  decide +kernel

/-- The four answers, and both ends of a range; group bytes 31, 39, 40 and 48, and field byte 8. -/
theorem witness_ConfigWriteChecksAndWrites :
    let fault := inState .faultNumber
    let free := inState .unconfigured
    fault.held = false ∧ fault.control.state = .faultNumber ∧
      online.held = false ∧ online.control.state ≠ .faultNumber ∧ online.control.locked = true ∧
      free.held = false ∧ free.control.state ≠ .faultNumber ∧ free.control.locked = false ∧
      configItem 40 0 = none ∧ configItem 48 8 = none ∧ configItem 31 7 = none ∧
      configItem 31 3 = some (.cls 31 .attemptLimit) ∧ configItem 39 5 = some (.source 7 .addr) ∧
      configItem 48 7 = some (.station .enableStateChange) := by decide +kernel

theorem witness_ConfigWriteChecksAndWrites_ranges :
    ¬ (ConfigItem.cls 31 .attemptLimit).inRange 0 ∧ (ConfigItem.cls 31 .attemptLimit).inRange 1 ∧
      (ConfigItem.cls 31 .attemptLimit).inRange 15 ∧ ¬ (ConfigItem.cls 31 .attemptLimit).inRange 16 ∧
      (ConfigItem.source 7 .addr).inRange 8589934591 ∧ ¬ (ConfigItem.source 7 .addr).inRange 8589934592 := by
  unfold ConfigItem.inRange; decide +kernel

theorem witness_ConfigReadReturnsItem : busy.held = false ∧ configItem 40 0 = none ∧
    configItem 48 0 = some (.station .tickFactor) := by decide +kernel

/-- Every station state, and in UNCONFIGURED a record in range and one with attempt limit 0. -/
theorem witness_JoinByState :
    (inState .faultNumber).control.state = .faultNumber ∧ (inState .joining).control.state = .joining ∧
      online.control.state = .online ∧ draining.control.state = .draining ∧ (inState .offline).control.state = .offline ∧
      (inState .faultClash).control.state = .faultClash ∧ (inState .muted).control.state = .muted ∧
      (inState .unconfigured).control.state = .unconfigured ∧ online.held = false := by decide +kernel

theorem witness_JoinByState_record :
    (inState .unconfigured).control.config.InRanges ∧
      ¬ ({ config with classes := Vector.replicate 32 { cls with attemptLimit := 0 } } : Configuration).InRanges := by
  unfold Configuration.InRanges; decide +kernel

/-- ONLINE with records, copies and latched edges of every kind; and a state that refuses DRAIN. -/
theorem witness_DrainByState : busy.held = false ∧ busy.control.state = .online ∧
    (inState .muted).control.state ≠ .online ∧ rec 10 0 .waiting ∈ busy.offer.records ∧
    rec 11 0 (.backoff 2) ∈ busy.offer.records ∧ rec 12 0 (.offering false) ∈ busy.offer.records ∧
    rec 15 0 (.resolved .cancelled 0) ∈ busy.offer.records ∧ rec 13 0 (.outstanding 1 (some 0)) ∈ busy.offer.records ∧
    (classOf busy 0).report = true ∧ rec 18 1 .waiting ∈ busy.offer.records ∧ (classOf busy 1).report = false ∧
    copyOf 1 20 2 0 .waiting ∈ busy.work.inbound ∧
    copyOf 0 21 2 1 (.returning 0 0 none) ∈ busy.work.inbound ∧
    [copyOf 1 20 2 0 .waiting, copyOf 1 41 3 3 .waiting].Sublist busy.work.inbound := by decide +kernel

theorem witness_DrainByState_sound : busy.ListsSound ∧ busy.WorkSound := ⟨busy_lists, busy_work⟩

theorem witness_RestartByState : (inState .unconfigured).control.state = .unconfigured ∧
    (inState .faultNumber).control.state = .faultNumber ∧ busy.held = false ∧ busy.control.state ≠ .unconfigured ∧
    busy.control.state ≠ .faultNumber := by decide +kernel

/-- A state that refuses; each parameter at its last value and one past it; a full list, and one with a place. -/
theorem witness_SubmitChecksAndMakesRecord :
    let last := (31 : Byte).toNat ≤ 31 ∧ (7 : Byte).toNat ≤ 7 ∧ (1 : Byte).toNat ≤ 1 ∧ (32767 : BitVec 16).toNat < 32768
    (draining.control.state ≠ .online ∧ draining.control.state ≠ .muted) ∧
      (online.control.state = .online ∨ online.control.state = .muted) ∧ last ∧
      ¬ ((32 : Byte).toNat ≤ 31) ∧ ¬ ((8 : Byte).toNat ≤ 7) ∧ ¬ ((2 : Byte).toNat ≤ 1) ∧
      ¬ ((32768 : BitVec 16).toNat < 32768) ∧ 32 ≤ (withRecords fullList online).offer.records.length ∧
      (withRecords fullList.dropLast online).offer.records.length < 32 := by decide +kernel

theorem witness_SubmitChecksAndMakesRecord_served : (withRecords fullList.dropLast online).ServedSound := by
  unfold State.ServedSound; decide +kernel

theorem witness_CancelByRecordState : busy.held = false ∧ busy.control.state ≠ .unconfigured ∧
    busy.control.state ≠ .faultNumber ∧ (inState .faultNumber).control.state = .faultNumber ∧
    (∀ r ∈ busy.offer.records, r.tag ≠ 9) ∧ rec 15 0 (.resolved .cancelled 0) ∈ busy.offer.records ∧
    rec 12 0 (.offering false) ∈ busy.offer.records ∧ rec 10 0 .waiting ∈ busy.offer.records ∧
    rec 11 0 (.backoff 2) ∈ busy.offer.records ∧ rec 14 0 (.outstanding 2 none) ∈ busy.offer.records := by decide +kernel

theorem witness_QueryReadsRecord : busy.held = false ∧ (∀ r ∈ busy.offer.records, r.tag ≠ 9) ∧
    rec 13 0 (.outstanding 1 (some 0)) ∈ busy.offer.records := by decide +kernel

theorem witness_CancelAndQuery_sound : busy.ListsSound := busy_lists

/-- A full service list; an empty queue; and a queue whose first record is RETURNING, before a WAITING one. -/
theorem witness_TakeMovesFirstWaiting :
    let full : State := { online with work.slots := Vector.replicate 8 (some (entryOf 1 1 .taken)) }
    let s := withInbound [copyOf 0 21 2 1 (.returning 0 0 none), copyOf 1 41 3 3 .waiting] online
    (inState .offline).control.state.receives = false ∧ full.control.state.receives = true ∧
      (∀ i, full.work.slots.get i ≠ none) ∧ online.work.slots.get 7 = none ∧
      (∀ r ∈ online.work.inbound, r.state ≠ .waiting) ∧ s.held = false ∧ s.control.state.receives = true ∧
      s.work.slots.get 0 = none ∧
      s.work.inbound = [copyOf 0 21 2 1 (.returning 0 0 none)] ++ copyOf 1 41 3 3 .waiting :: [] ∧
      (∀ x ∈ [copyOf 0 21 2 1 (.returning 0 0 none)], x.state ≠ .waiting) := by decide +kernel

theorem witness_TakeMovesFirstWaiting_sound :
    (withInbound [copyOf 0 21 2 1 (.returning 0 0 none), copyOf 1 41 3 3 .waiting] online).WorkSound :=
  work_of_no_hand rfl (by decide +kernel)

/-- Slots 7 and 8, outcome codes 3 and 4; an empty slot, a NOTIFYING one, a TAKEN one of a peer, and of the station's own in
MUTED. -/
theorem witness_FinishByEntryState :
    busy.held = false ∧ (inState .offline).control.state.receives = false ∧ busy.control.state.receives = true ∧
      7 < (8 : Byte).toNat ∧ ¬ 7 < (7 : Byte).toNat ∧ 3 < (4 : Byte).toNat ∧ (3 : Byte).toNat ≤ 3 ∧
      (7 : Byte).toNat = (7 : Fin 8).val ∧ busy.work.slots.get 7 = none ∧
      busy.work.slots.get 1 = some (entryOf 0 31 (.notifying (.done 2) 1 0 none)) ∧
      busy.work.slots.get 0 = some (entryOf 1 30 .taken) ∧ (1 : StationNumber) ≠ busy.control.number ∧
      (withSlot 0 (entryOf 2 30 .taken) (inState .muted)).work.slots.get 0 = some (entryOf 2 30 .taken) ∧
      (inState .muted).control.state = .muted := by decide +kernel

theorem witness_HandBackByEntryState :
    busy.held = false ∧ (inState .offline).control.state.receives = false ∧ busy.control.state.receives = true ∧
      7 < (8 : Byte).toNat ∧ (7 : Byte).toNat = (7 : Fin 8).val ∧ busy.work.slots.get 7 = none ∧
      busy.work.slots.get 1 = some (entryOf 0 31 (.notifying (.done 2) 1 0 none)) ∧
      busy.work.slots.get 0 = some (entryOf 1 30 .taken) ∧ (1 : StationNumber) ≠ busy.control.number := by decide +kernel

/-- The station's own ticket 14 in slot 2: matched; stale with report room, and stale with the report queue full. -/
theorem witness_SelfNoticeAnsweredAtOnce :
    let stale := withSlot 2 (entryOf 2 99 .taken) busy
    busy.held = false ∧ (2 : Byte).toNat = (2 : Fin 8).val ∧ (3 : Byte).toNat ≤ 3 ∧ busy.control.state = .online ∧
      busy.work.slots.get 2 = some (entryOf 2 14 .taken) ∧ (2 : StationNumber) = busy.control.number ∧
      rec 14 0 (.outstanding 2 none) ∈ busy.offer.records ∧ stale.work.slots.get 2 = some (entryOf 2 99 .taken) ∧
      (∀ r ∈ stale.offer.records, r.tag ≠ 99) ∧ stale.reports.queue.length < 16 ∧
      16 ≤ (withReports 16 stale).reports.queue.length ∧ busyDraining.control.state = .draining := by decide +kernel

theorem witness_SelfNoticeAnsweredAtOnce_limits :
    (rec 14 0 (.outstanding 2 none)).attempts + 1 < (classOf busy 0).attemptLimit ∧
      (classOf busy 0).attemptLimit ≤ ({ rec 14 0 (.outstanding 2 none) with attempts := 1 } : OutRecord).attempts + 1 := by
  decide +kernel

theorem witness_SelfNoticeAnsweredAtOnce_sound : (withReports 16 (withSlot 2 (entryOf 2 99 .taken) busy)).ListsSound ∧
    (withReports 16 (withSlot 2 (entryOf 2 99 .taken) busy)).WorkSound :=
  ⟨by unfold State.ListsSound; decide +kernel, work_of_no_hand rfl (by decide +kernel)⟩

/-- Copies of its own at a DRAIN: 20 matches its record, 21 does not, and record 22, self-claimed, has no copy here. -/
def selfClaims : State :=
  withInbound [copyOf 2 20 2 0 .waiting, copyOf 2 21 2 1 .waiting, copyOf 1 23 3 2 .waiting]
    (withRecords [rec 20 0 (.outstanding 2 none), { rec 21 0 (.outstanding 2 none) with generation := 1 },
      rec 22 0 (.outstanding 2 none)] online)

/-- With report room, both copies go and only record 22, and the stale 21, stay; with a full queue, the record waits RESOLVED and
the stale copy STALE. -/
theorem witness_SelfNoticeAnsweredAtOnce_drain :
    let room := run .drain selfClaims
    let full := run .drain (withReports 16 selfClaims)
    selfClaims.held = false ∧ selfClaims.control.state = .online ∧ room.work.inbound.map (·.tag) = [23] ∧
      room.reports.queue.map (·.kind) = [.withdrawn, .stale] ∧ room.offer.records.map (·.tag) = [21, 22] ∧
      full.offer.records.map (·.state) =
        [.resolved .withdrawn 0, .outstanding 2 none, .outstanding 2 none] ∧
      (full.work.inbound.map fun q => (q.tag, q.state)) =
        [(21, .returning 1 0 (some ⟨.stale, 1⟩)), (23, .returning 2 0 none)] := by decide +kernel

theorem witness_SelfNoticeAnsweredAtOnce_drainSound : selfClaims.ListsSound ∧ selfClaims.WorkSound :=
  ⟨by unfold State.ListsSound; decide +kernel, work_of_no_hand rfl (by decide +kernel)⟩

/-- An empty queue; one report and nothing waiting; a full queue with one record waiting, and with one copy waiting. -/
theorem witness_ReportReturnsOldest :
    let copy := withReports 16 (withSlot 0 (entryOf 1 30 (.notifying .ret 0 8 (some ⟨.undelivered, 4⟩))) online)
    online.reports.queue = [] ∧ (withReports 1 online).reports.queue = aReport :: [] ∧
      waitingItems (withReports 1 online) = [] ∧
      (withReports 16 busy).reports.queue = aReport :: List.replicate 15 aReport ∧
      waitingItems (withReports 16 busy) = [(0, .record (rec 15 0 (.resolved .cancelled 0)) .cancelled)] ∧
      copy.reports.queue = aReport :: List.replicate 15 aReport ∧ (waitingItems copy).map (·.1) = [4] := by decide +kernel

theorem witness_ReportReturnsOldest_sound : (withReports 1 online).DrainSound ∧ (withReports 16 busy).ListsSound ∧
    (withReports 16 (withSlot 0 (entryOf 1 30 (.notifying .ret 0 8 (some ⟨.undelivered, 4⟩))) online)).ListsSound :=
  ⟨by unfold State.DrainSound; decide +kernel, by unfold State.ListsSound; decide +kernel,
    by unfold State.ListsSound; decide +kernel⟩

theorem witness_StatusAndRosterRead : busy.held = false := by decide +kernel

/-- Entries 7 and 8, values 1 and 2; an edge line, and a level line QUIET and active with a place free. -/
theorem witness_MaskSetAndCleared :
    let s := lineHigh 1 (setEntry 1 { entryAt online 1 with masked := true } online)
    (inState .faultNumber).control.state = .faultNumber ∧ s.held = false ∧ s.control.state ≠ .unconfigured ∧
      s.control.state ≠ .faultNumber ∧ 7 < (8 : Byte).toNat ∧ 1 < (2 : Byte).toNat ∧ (7 : Byte).toNat = (7 : Line).val ∧
      (s.control.config.sourceConfig 2).trigger = .edge ∧ (s.control.config.sourceConfig 1).trigger = .level ∧
      s.control.state = .online ∧ (entryAt s 1).state = .quiet ∧ lineActive s 1 = true ∧ s.offer.records.length < 32 ∧
      setsMeet (s.control.config.sourceConfig 1).dest s.control.roster = true ∧
      setsMeet (s.control.config.sourceConfig 5).dest s.control.roster = false := by decide +kernel

theorem witness_MaskSetAndCleared_served :
    (lineHigh 1 (setEntry 1 { entryAt online 1 with masked := true } online)).ServedSound := by
  unfold State.ServedSound; decide +kernel

/-- A block in the table, one not in it, and a table of 16. -/
theorem witness_TouchAndForgetSetTable :
    let s : State := { online with claim.affinity := [258, 512, 40] }
    let full : State := { online with claim.affinity := List.range 16 }
    s.held = false ∧ s.control.state ≠ .unconfigured ∧ s.control.state ≠ .faultNumber ∧
      (inState .unconfigured).control.state = .unconfigured ∧
      s.claim.affinity = [258, 512] ++ ((163840 : Address).toNat / 2 ^ s.control.config.station.blockExponent) :: [] ∧
      (1060000 : Address).toNat / 2 ^ full.control.config.station.blockExponent ∉ full.claim.affinity ∧
      full.claim.affinity.length = 16 ∧ ({ s with claim.affinity := [258] } : State).claim.affinity.length < 16 ∧
      (offerOf 1 9 0 4).addr = some 1060000 ∧ (classOf online 0).affinityUse = true ∧ online.claim.affinity = [] := by
  decide +kernel

theorem witness_TouchAndForgetSetTable_sound : ({ online with claim.affinity := [258, 512, 40] } : State).ListsSound := by
  unfold State.ListsSound; decide +kernel

/-- The first and the last byte that name no command, and a transaction that has been answered. -/
theorem witness_PortEventsHaveNoEffect :
    let s : State := { online with
      port := { scsLow := true, active := true, bits := [], bytes := [0], taken := true, response := [5], shifted := 8 } }
    s.held = false ∧ (0 : Byte).toNat = 0 ∧ 18 ≤ (18 : Byte).toNat ∧ 18 ≤ (255 : Byte).toNat ∧ s.port.active = true ∧
      s.port.taken = true ∧ s.port.response = [5] ∧ 8 ≤ s.port.shifted := by decide +kernel

/-- The response phase of a REPORT: the first bit, a bit inside the second byte, and 1 behind the last. -/
theorem witness_PortEventsHaveNoEffect_response :
    let shown (n : Nat) : Option Bool :=
      sdo { online with port := { scsLow := true, active := true, bits := [], bytes := [12], taken := true,
                                  response := [0, 70, 1], shifted := n } }
    (List.range 25).map shown = ([0, 0, 0, 0, 0, 0, 0, 0, 0, 1, 0, 0, 0, 1, 1, 0, 0, 0, 0, 0, 0, 0, 0, 1, 1].map fun n =>
        some (n == 1)) ∧ sdo online = none := by decide +kernel

/-- Edge line 2: ignored in DRAINING and when masked; QUIET with and without a place; LATCHED; LIVE. -/
theorem witness_EdgeLineByEntryState :
    let full := withRecords fullList online
    online.held = false ∧ (online.control.config.sourceConfig 2).trigger = .edge ∧ lineActive online 2 = false ∧
      draining.control.state ≠ .online ∧ draining.control.state ≠ .muted ∧ lineActive draining 2 = false ∧
      (entryAt (setEntry 2 { entryAt online 2 with masked := true } online) 2).masked = true ∧
      (entryAt online 2).masked = false ∧ (entryAt online 2).state = .quiet ∧ online.offer.records.length < 32 ∧
      setsMeet (online.control.config.sourceConfig 2).dest online.control.roster = true ∧
      32 ≤ full.offer.records.length ∧ lineActive full 2 = false ∧ (entryAt full 2).state = .quiet ∧
      (entryAt (entryIn 2 .latched full) 2).state = .latched ∧ lineActive (entryIn 2 .latched full) 2 = false ∧
      (entryAt (entryIn 2 (.live 17 false) online) 2).state = .live 17 false := by decide +kernel

/-- Lines 4 (edge) and 5 (level) name no peer: QUIET where the record has left, LIVE where it waits, and the hold for line 5. -/
theorem witness_LinesWithoutPeer :
    let after (l : Line) (n : Nat) : SourceEntry := entryAt (run (.lineBecomesActive l) (withReports n online)) l
    ((after 4 15).state = .quiet ∧ (after 4 15).hold = false) ∧ ((after 4 16).state = .live 0 false ∧ (after 4 16).hold = false) ∧
      ((after 5 15).state = .quiet ∧ (after 5 15).hold = true) ∧
      ((after 5 16).state = .live 0 false ∧ (after 5 16).hold = true) := by decide +kernel

theorem witness_EdgeLineByEntryState_served : online.ServedSound := online_served

/-- Level line 1: no place; and QUIET, unmasked, its hold clear, with a place, with and without a peer. -/
theorem witness_LevelLineByEntryState :
    let full := withRecords fullList online
    online.held = false ∧ (online.control.config.sourceConfig 1).trigger = .level ∧ lineActive online 1 = false ∧
      32 ≤ full.offer.records.length ∧ lineActive full 1 = false ∧ (entryAt full 1).state ≠ .latched ∧
      online.control.state = .online ∧ (entryAt online 1).masked = false ∧ (entryAt online 1).hold = false ∧
      (entryAt online 1).state = .quiet ∧ online.offer.records.length < 32 ∧
      setsMeet (online.control.config.sourceConfig 1).dest online.control.roster = true ∧
      (online.control.config.sourceConfig 5).trigger = .level ∧ lineActive online 5 = false ∧
      setsMeet (online.control.config.sourceConfig 5).dest online.control.roster = false := by decide +kernel

theorem witness_LevelLineByEntryState_served : online.ServedSound ∧ (withRecords fullList online).ServedSound :=
  ⟨online_served, by unfold State.ServedSound; decide +kernel⟩

theorem witness_InactiveLineClearsHold : online.held = false ∧ lineActive (lineHigh 1 online) 1 = true ∧
    lineActive online 1 = false := by decide +kernel

/-- A full list; nothing waiting; and one place with LATCHED line 2 waiting below LATCHED line 4. -/
theorem witness_FreePlacesGoLowestLineFirst :
    let s := entryIn 2 .latched (entryIn 4 .latched (withRecords fullList.dropLast online))
    32 ≤ (withRecords fullList online).offer.records.length ∧ (∀ l, waitingSource online l = false) ∧
      waitingSource s 2 = true ∧ (∀ k, k < 2 → waitingSource s k = false) ∧ waitingSource s 4 = true ∧
      s.offer.records.length = 31 ∧ setsMeet (s.control.config.sourceConfig 2).dest s.control.roster = true := by
  decide +kernel

/-- Lines 0 and 2 LATCHED with peers and two places; the record of line 2 leaves a full list while line 0 waits too. -/
theorem witness_FreePlacesGoLowestLineFirst_several :
    let s := entryIn 2 .latched (entryIn 0 .latched (withRecords (fullList.take 30) online))
    let own := entryIn 2 (.live 99 true) (entryIn 0 .latched
      (withRecords ({ rec 99 0 .waiting with source := .line 2 } :: fullList.take 31) online))
    (∀ l, waitingSource s l = true → setsMeet (s.control.config.sourceConfig l).dest s.control.roster = true) ∧
      (serveSources s).offer.records.length = 32 ∧ waitingSource s 0 = true ∧ waitingSource s 2 = true ∧
      ((placeFreed (.line 2) (entryIn 2 .latched (entryIn 0 .latched
        (withRecords fullList.dropLast online)))).offer.records.getLast?.map (·.source)) = some (.line 2) ∧
      own.offer.records.length = 32 ∧ (entryAt own 2).state = .live 99 true ∧ (entryAt own 2).masked = false ∧
      ((run (.cancel 99) own).offer.records.getLast?.map (·.source)) = some (.line 2) ∧
      (entryAt (run (.cancel 99) own) 0).state = .latched := by decide +kernel

theorem witness_TickCountsTimersDown : busyDraining.held = false ∧
    busyDraining.offer.records[1]? = some (rec 11 0 (.backoff 2)) := by decide +kernel

/-- Timers at 0 and not at 0; generation 0 below the re-offer limit 1, and at the limit. -/
theorem witness_ExpiriesMoveRecords :
    let old := { rec 13 0 (.outstanding 1 (some 0)) with generation := 1 }
    busy.held = false ∧ rec 16 0 (.backoff 0) ∈ busy.offer.records ∧ rec 13 0 (.outstanding 1 (some 0)) ∈ busy.offer.records ∧
      (∀ r ∈ busy.offer.records, r.tag = 11 → r.state ≠ .backoff 0) ∧
      (∀ r ∈ busy.offer.records, r.tag = 14 → ∀ c, r.state ≠ .outstanding c (some 0)) ∧
      (rec 13 0 (.outstanding 1 (some 0))).generation.toNat < (classOf busy 0).reofferLimit ∧
      old ∈ (withRecords [old] online).offer.records ∧
      (classOf (withRecords [old] online) old.cls).reofferLimit ≤ old.generation.toNat := by decide +kernel

theorem witness_ExpiriesMoveRecords_sound : busy.ListsSound ∧
    (withRecords [{ rec 13 0 (.outstanding 1 (some 0)) with generation := 1 }] online).ListsSound :=
  ⟨busy_lists, by unfold State.ListsSound; decide +kernel⟩

theorem witness_DrainLimitWithdraws : busyDraining.held = false ∧ busyDraining.control.state = .draining ∧
    busyDraining.control.drainTimer = some 0 ∧ busy.control.state ≠ .draining ∧
    ({ busyDraining with control.drainTimer := some 1 } : State).control.drainTimer ≠ some 0 ∧
    rec 10 0 .waiting ∈ busyDraining.offer.records ∧ rec 14 0 (.outstanding 2 none) ∈ busyDraining.offer.records ∧
    rec 12 0 (.offering false) ∈ busyDraining.offer.records ∧
    rec 15 0 (.resolved .cancelled 0) ∈ busyDraining.offer.records ∧ rec 18 1 .waiting ∈ busyDraining.offer.records ∧
    (classOf busyDraining 0).report = true ∧ (classOf busyDraining 1).report = false := by decide +kernel

theorem witness_DrainLimitWithdraws_sound : busyDraining.ListsSound := busyDraining_lists

theorem witness_QuietAndUnreadableKind : online.held = false ∧ online.control.state.receives = true ∧
    online.bus.synchronised = true ∧ ({ online with bus.synchronised := false } : State).bus.synchronised = false ∧
    (inState .offline).control.state.receives = false := by decide +kernel

/-- Not named by the set; in service; a WAITING copy below, and at, the offer's
generation; a RETURNING copy; a full queue; and a place. -/
theorem witness_OfferDecidedByRules :
    let full := withInbound ((List.range 24).map fun n => copyOf 1 (BitVec.ofNat 8 n) 0 n .waiting) online
    busy.held = false ∧ (inState .offline).receiving = false ∧ busy.receiving = true ∧
      (offerOf 1 20 1 4).sender ≠ 15 ∧ busy.control.state = .online ∧
      setHas (offerOf 1 20 1 4).dest busy.control.number = true ∧ (classOf busy 0).accept = true ∧
      setHas (offerOf 1 20 1 3).dest busy.control.number = false ∧
      busy.work.slots.get 0 = some (entryOf 1 30 .taken) ∧ copyOf 1 20 2 0 .waiting ∈ busy.work.inbound ∧
      (copyOf 1 20 2 0 .waiting).generation.toNat < (offerOf 1 20 1 4).generation.toNat ∧
      (offerOf 1 20 0 4).generation.toNat ≤ (copyOf 1 20 2 0 .waiting).generation.toNat ∧
      copyOf 0 21 2 1 (.returning 0 0 none) ∈ busy.work.inbound ∧ full.receiving = true ∧
      (∀ r ∈ full.work.inbound, ¬ (r.originator = 1 ∧ r.tag = 99)) ∧ 24 ≤ full.work.inbound.length ∧
      (∀ r ∈ busy.work.inbound, ¬ (r.originator = 1 ∧ r.tag = 99)) ∧ busy.work.inbound.length < 24 ∧
      busy.control.config.station.affinityWeight ≤ 15 := by decide +kernel

theorem witness_OfferDecidedByRules_sound : busy.WorkSound := busy_work

/-- OFFLINE, an unsynchronised bus unit, sender 15, and no offer in hand. -/
theorem witness_FramesNeedReception : (inState .offline).held = false ∧ (inState .offline).receiving = false ∧
    ({ online with bus.synchronised := false } : State).receiving = false ∧ online.held = false ∧
    (offerOf 15 9 0 4).sender = 15 ∧ (noticeOf .done 15 13 0).sender = 15 ∧ online.claim.offerInHand = none := by decide +kernel

/-- No offer in hand; one in hand, with the bid read, another bid, another claimant, and in DRAINING. -/
theorem witness_ClaimReadLearnsAndEnds :
    let s := withHand (offerOf 1 9 0 4) (some 5) false online
    s.held = false ∧ s.receiving = true ∧ online.claim.offerInHand = none ∧
      s.claim.offerInHand = some { offer := offerOf 1 9 0 4, bid := some 5, upgrade := false, inClaim := true } ∧
      some (5 : BitVec 6) ≠ some 6 ∧ (1 : StationNumber) ≠ s.control.number ∧ draining.control.state ≠ .online := by
  decide +kernel

theorem witness_WinnerCommitsNewTicket :
    let s := withHand (offerOf 1 9 0 4) (some 8) false busy
    s.held = false ∧ s.receiving = true ∧ s.control.state = .online ∧
      s.claim.offerInHand = some { offer := offerOf 1 9 0 4, bid := some 8, upgrade := false, inClaim := true } := by
  decide +kernel

theorem witness_WinnerCommitsNewTicket_sound : (withHand (offerOf 1 9 0 4) (some 8) false busy).WorkSound :=
  work_of_hand rfl (by decide +kernel) (by decide +kernel)

/-- An upgrade whose copy is still WAITING, and one whose copy has gone RETURNING. -/
theorem witness_WinnerUpgradesCopy :
    let s := withHand (offerOf 1 20 1 4) (some 0) true busy
    let gone := withHand (offerOf 0 21 1 4) (some 0) true busy
    s.held = false ∧ s.receiving = true ∧ s.control.state = .online ∧
      s.claim.offerInHand = some { offer := offerOf 1 20 1 4, bid := some 0, upgrade := true, inClaim := true } ∧
      s.work.inbound = [] ++ copyOf 1 20 2 0 .waiting :: s.work.inbound.tail ∧
      gone.claim.offerInHand = some { offer := offerOf 0 21 1 4, bid := some 0, upgrade := true, inClaim := true } ∧
      ∀ r ∈ gone.work.inbound, r.originator = 0 → r.tag = 21 → r.state ≠ .waiting := by decide +kernel

theorem witness_WinnerUpgradesCopy_sound : (withHand (offerOf 1 20 1 4) (some 0) true busy).WorkSound ∧
    (withHand (offerOf 0 21 1 4) (some 0) true busy).WorkSound :=
  ⟨work_of_hand rfl (by decide +kernel) (by decide +kernel), work_of_hand rfl (by decide +kernel) (by decide +kernel)⟩

/-- Not to the station; in MUTED; stale by generation; matched; and at the attempt limit. -/
theorem witness_NoticeAnsweredByMatch :
    let last := { rec 13 0 (.outstanding 1 none) with attempts := 1 }
    busy.held = false ∧ busy.receiving = true ∧ (noticeOf .done 1 13 0).sender ≠ 15 ∧
      (noticeOf .done 1 13 0).target = busy.control.number ∧
      ({ noticeOf .done 1 13 0 with target := 3 } : NoticeFields).target ≠ busy.control.number ∧
      (inState .muted).control.state = .muted ∧ (inState .muted).receiving = true ∧ busy.control.state = .online ∧
      (∀ r ∈ busy.offer.records, r.tag = 13 → r.generation ≠ 1) ∧
      rec 13 0 (.outstanding 1 (some 0)) ∈ busy.offer.records ∧ (rec 13 0 (.outstanding 1 (some 0))).generation = 0 ∧
      (rec 13 0 (.outstanding 1 (some 0))).attempts + 1 < (classOf busy 0).attemptLimit ∧
      last ∈ (withRecords [last] online).offer.records ∧ (classOf online 0).attemptLimit ≤ last.attempts + 1 ∧
      busyDraining.control.state = .draining := by decide +kernel

theorem witness_NoticeAnsweredByMatch_sound : busy.ListsSound ∧ busyDraining.ListsSound ∧
    (withRecords [{ rec 13 0 (.outstanding 1 none) with attempts := 1 }] online).ListsSound :=
  ⟨busy_lists, busyDraining_lists, by unfold State.ListsSound; decide +kernel⟩

theorem witness_FramesOfOthersAnswered : online.held = false ∧ online.receiving = true ∧ (14 : StationNumber) ≠ 15 ∧
    (inState .offline).receiving = false := by decide +kernel

/-- What a receiver drives: the void slot, its bid and number, heard and stale, presence and clash, and the acknowledge. -/
theorem witness_FramesOfOthersAnswered_drive :
    let at' (f : Frame) (more : Nat) (s : State) : State :=
      { s with bus.position := some (f.sentBits ++ List.replicate more true) }
    let offer := at' (.offer (offerOf 1 9 0 4))
    let bidder := withHand (offerOf 1 9 0 4) (some 31) false online
    let notice := at' (.notice (noticeOf .ret 1 13 0))
    let told (s : State) : State := { s with bus.answer := .notice true true }
    let join (n : Nat) : State := at' (.join 2 false) n { online with bus.answer := .join true true }
    drive (offer 0 { online with bus.answer := .void }) = false ∧ drive (offer 0 online) = true ∧
      [drive (offer 1 bidder), drive (offer 2 bidder), drive (offer 7 bidder), drive (offer 9 bidder),
        drive (offer 10 bidder), drive (offer 11 bidder)] = [false, true, false, true, false, true] ∧
      drive (notice 1 (told online)) = false ∧ drive (notice 2 (told online)) = false ∧
      [drive (join 12), drive (join 13), drive (join 14), drive (join 16)] = [true, false, true, false] ∧
      drive (at' (.leave 1) 1 online) = false ∧ drive (at' (.leave 15) 1 online) = true := by decide +kernel

/-- What a transmitter drives: its frame's bits, the void slot recessive, confirm where a bid was read; nothing once broken. -/
theorem witness_FramesOfOthersAnswered_ownFrame :
    let o := offerOf 2 12 0 2
    let own (status : OwnStatus) (bits : List Bool) : State :=
      { online with
        bus.ownFrame := some { candidate := .offer 12, frame := .offer o, status := status }, bus.position := some bits }
    let sent := (Frame.offer o).sentBits
    drive (own .transmitting (sent.take 1)) = true ∧ drive (own .transmitting (sent.take 2)) = false ∧
      drive (own .broken (sent.take 2)) = true ∧ drive (own .transmitting sent) = true ∧
      drive (own .transmitting (sent ++ List.replicate 11 true)) = true ∧
      drive (own .transmitting (sent ++ List.replicate 11 false)) = false := by decide +kernel

/-- Own number in JOINING and in ONLINE; a sender not known; one known, with claims below and at the re-offer limit. -/
theorem witness_JoinReceivedCaseByCase :
    let old := { rec 19 0 (.outstanding 1 none) with generation := 1 }
    busy.held = false ∧ busy.receiving = true ∧ (1 : StationNumber) ≠ 15 ∧ (inState .joining).receiving = true ∧
      (inState .joining).control.state = .joining ∧ (2 : StationNumber) = (inState .joining).control.number ∧
      (2 : StationNumber) = busy.control.number ∧ busy.control.state ≠ .joining ∧ busy.control.state ≠ .muted ∧
      setHas busy.control.roster 5 = false ∧ setHas busy.control.roster 1 = true ∧ (1 : StationNumber) ≠ busy.control.number ∧
      rec 13 0 (.outstanding 1 (some 0)) ∈ busy.offer.records ∧
      (rec 13 0 (.outstanding 1 (some 0))).generation.toNat < (classOf busy 0).reofferLimit ∧
      old ∈ (withRecords [old] online).offer.records ∧ (classOf online 0).reofferLimit ≤ old.generation.toNat ∧
      (classOf online 0).report = true := by decide +kernel

theorem witness_JoinReceivedCaseByCase_sound : busy.ListsSound ∧ busy.DrainSound ∧
    (withRecords [{ rec 19 0 (.outstanding 1 none) with generation := 1 }] online).ListsSound :=
  ⟨busy_lists, busy_drain, by unfold State.ListsSound; decide +kernel⟩

theorem witness_LeaveReceivedOrphans : busy.held = false ∧ busy.receiving = true ∧ (1 : StationNumber) ≠ 15 ∧
    setHas busy.control.roster 5 = false ∧ setHas busy.control.roster 1 = true ∧ (1 : StationNumber) ≠ busy.control.number ∧
    (inState .offline).receiving = false ∧ rec 13 0 (.outstanding 1 (some 0)) ∈ busy.offer.records := by
  decide +kernel

theorem witness_LeaveReceivedOrphans_sound : busy.ListsSound := busy_lists

/-- A LEAVE with the station's own number: removed in JOINING with resumed 0, kept with resumed 1, in MUTED and in ONLINE. -/
theorem witness_LeaveReceivedOrphans_own :
    let roster (s : State) : StationSet := (run (.leaveReceived 2) s).control.roster
    (inState .joining).receiving = true ∧ (inState .joining).control.joinCandidate = some false ∧
      roster (inState .joining) = 3 ∧ roster { inState .joining with control.joinCandidate := some true } = 7 ∧
      roster (inState .muted) = 7 ∧ roster online = 7 := by decide +kernel

/-- Three claims of station 1 at the re-offer limit, the second in a silent class: list order across the last report place, and
the silent one gone. -/
theorem witness_EndedInListOrder :
    let at' (tag : Tag) (c : TicketClass) : OutRecord := { rec tag c (.outstanding 1 none) with generation := 1 }
    let s := withReports 15 (withRecords [at' 20 0, at' 21 1, at' 22 0] online)
    let ends (t : State) : List Tag × List (Tag × RecordState) :=
      ((t.reports.queue.drop 15).map (·.tag), t.offer.records.map fun r => (r.tag, r.state))
    ends (run (.leaveReceived 1) s) = ([20], [(22, .resolved (.lapsed 0) 2)]) ∧
      ends (run (.joinReceived 1 false false) s) = ([20], [(22, .resolved (.lapsed 0) 2)]) ∧
      ends (run .drainLimitExpiry { s with control := { s.control with state := .draining, drainTimer := some 0 } }) =
        ([20], [(22, .resolved .withdrawn 2)]) ∧
      ends (run .drain (withRecords [rec 20 0 .waiting, rec 21 1 .waiting, rec 22 0 (.backoff 1)] s)) =
        ([20], [(22, .resolved .withdrawn 2)]) := by decide +kernel

/-- Not free in four ways; a JOIN, a LEAVE; and the older of two notices to peers. -/
theorem witness_FrameStartByRank :
    let leaving : State := { draining with control.leaveCandidate := true }
    let s : State := { busy with bus := online.bus }
    (inState .muted).control.state.sends = false ∧ ({ online with bus.synchronised := false } : State).bus.synchronised = false ∧
      busy.bus.ownFrame ≠ none ∧ busy.bus.position ≠ none ∧ online.held = false ∧ online.control.state.sends = true ∧
      online.bus.synchronised = true ∧ online.bus.ownFrame = none ∧ online.bus.position = none ∧
      (inState .joining).control.state = .joining ∧ (inState .joining).control.joinCandidate = some false ∧
      leaving.control.state ≠ .joining ∧ leaving.control.leaveCandidate = true ∧ s.control.leaveCandidate = false ∧
      ∃ n ∈ heldNotices s, n.resolution = none ∧ n.originator ≠ s.control.number ∧ n.kind = .ret ∧
        ∀ m ∈ heldNotices s, m.resolution = none → m.originator ≠ s.control.number → m = n ∨ n.age < m.age := by
  decide +kernel

/-- A first record without a peer, one with a peer behind it, one that waits behind both; and none with a peer. -/
theorem witness_FrameStartOffersFirstWithPeer :
    let lone := { rec 1 0 .waiting with level := 1, dest := 512 }
    let s := withRecords [rec 2 0 .waiting, lone, rec 3 0 .waiting] online
    s.held = false ∧ s.control.state = .online ∧ s.bus.synchronised = true ∧ s.bus.ownFrame = none ∧ s.bus.position = none ∧
      s.control.leaveCandidate = false ∧ heldNotices s = [] ∧ rec 2 0 .waiting ∈ s.offer.records ∧
      setsMeet (rec 2 0 .waiting).dest s.control.roster = true ∧
      (∀ x ∈ s.offer.records, x.state = .waiting →
        x.level.toNat < (rec 2 0 .waiting).level.toNat ∨
          (x.level = (rec 2 0 .waiting).level ∧ [x, rec 2 0 .waiting].Sublist s.offer.records) →
        setsMeet x.dest s.control.roster = false) ∧
      ∀ r ∈ (withRecords [lone] online).offer.records, setsMeet r.dest online.control.roster = false := by decide +kernel

/-- A record without a peer ahead, in a silent class: it is gone. -/
theorem witness_FrameStartOffersFirstWithPeer_silent :
    (run .frameStart (withRecords [{ rec 1 1 .waiting with level := 1, dest := 512 }, rec 2 0 .waiting] online)).offer.records =
      [rec 2 0 (.offering false)] := by decide +kernel

theorem witness_FrameStartOffersFirstWithPeer_sound :
    (withRecords [rec 2 0 .waiting, { rec 1 0 .waiting with level := 1, dest := 512 }, rec 3 0 .waiting]
      online).ListsSound := by unfold State.ListsSound; decide +kernel

/-- No such frame; a count of 23, which stays below 32; both cancel flags; DRAINING; retry interval 0; the attempt limit. -/
theorem witness_OfferEndByFate :
    let s : State := { busy with bus.errorCount := 23 }
    let asked := withFrame (.offer 7) (withRecords [rec 7 0 (.offering true)] draining)
    let last := { rec 7 1 (.offering false) with attempts := 1 }
    online.bus.ownFrame = none ∧ s.held = false ∧ s.control.state = .online ∧
      (s.bus.ownFrame.map (·.candidate)) = some (.offer 12) ∧ rec 12 0 (.offering false) ∈ s.offer.records ∧
      s.bus.errorCount + 8 ≤ 31 ∧ s.bus.errorCount - 1 ≤ 31 ∧ asked.control.state = .draining ∧
      rec 7 0 (.offering true) ∈ asked.offer.records ∧ (62 : BitVec 6).toNat ≤ 62 ∧ (14 : StationNumber).toNat ≤ 14 ∧
      ¬ (63 : BitVec 6).toNat ≤ 62 ∧ busyDraining.control.drainPassed = false ∧
      (rec 12 0 (.offering false)).attempts + 1 < (classOf s 0).attemptLimit ∧ (classOf s 1).retry = 0 ∧
      (classOf s last.cls).attemptLimit ≤ last.attempts + 1 := by decide +kernel

theorem witness_OfferEndByFate_sound : ({ busy with bus.errorCount := 23 } : State).ListsSound ∧
    (withFrame (.offer 7) (withRecords [rec 7 0 (.offering true)] draining)).ListsSound :=
  ⟨by unfold State.ListsSound; decide +kernel, by unfold State.ListsSound; decide +kernel⟩

/-- The notice of slot 1 with 6 and with 7 attempts, with report room and without, in DRAINING, a count of 23. -/
theorem witness_NoticeFateByReply :
    let at6 := withSlot 1 (entryOf 0 31 (.notifying (.done 2) 1 6 none)) (withFrame (.notice (.slot 1)) draining)
    let at7 := withSlot 1 (entryOf 0 31 (.notifying (.done 2) 1 7 none)) (withFrame (.notice (.slot 1)) draining)
    online.bus.ownFrame = none ∧ at6.held = false ∧ at6.control.state = .draining ∧
      (at6.bus.ownFrame.map (·.candidate)) = some (.notice (.slot 1)) ∧ (heldNotices at6).map (·.ref) = [.slot 1] ∧
      (heldNotices at6).map (fun n => decide (n.attempts + 1 < 8)) = [true] ∧
      (heldNotices at7).map (fun n => decide (8 ≤ n.attempts + 1)) = [true] ∧ at7.reports.queue.length < 16 ∧
      16 ≤ (withReports 16 at7).reports.queue.length ∧ at6.bus.errorCount ≤ 31 := by decide +kernel

theorem witness_NoticeFateByReply_sound :
    (withSlot 1 (entryOf 0 31 (.notifying (.done 2) 1 6 none)) (withFrame (.notice (.slot 1)) draining)).WorkSound ∧
      (withReports 16 (withSlot 1 (entryOf 0 31 (.notifying (.done 2) 1 7 none))
        (withFrame (.notice (.slot 1)) draining))).WorkSound :=
  ⟨work_of_no_hand rfl (by decide +kernel), work_of_no_hand rfl (by decide +kernel)⟩

/-- A resumed JOIN that holds copies of its own and of others, a count of 23. -/
theorem witness_JoinEndByClash :
    let s : State := { withFrame .join (withSlot 0 (entryOf 2 14 (.notifying .ret 0 0 none)) (withSlot 1 (entryOf 1 30 .taken)
      (withInbound [copyOf 1 20 2 0 .waiting] (inState .joining)))) with control.joinCandidate := some true }
    online.bus.ownFrame = none ∧ s.held = false ∧ s.control.state = .joining ∧
      (s.bus.ownFrame.map (·.candidate)) = some .join ∧ s.bus.errorCount + 8 ≤ 31 ∧
      s.work.slots.get 1 = some (entryOf 1 30 .taken) ∧ copyOf 1 20 2 0 .waiting ∈ s.work.inbound := by decide +kernel

theorem witness_JoinEndByClash_sound :
    ({ withFrame .join (withSlot 0 (entryOf 2 14 (.notifying .ret 0 0 none)) (withSlot 1 (entryOf 1 30 .taken)
      (withInbound [copyOf 1 20 2 0 .waiting] (inState .joining)))) with control.joinCandidate := some true } : State).WorkSound :=
  work_of_no_hand rfl (by decide +kernel)

/-- A hold set in MUTED goes at the entry where the line has a peer (line 1), and is set again where it has none (line 5). -/
theorem witness_JoinEndByClash_holds :
    let held (l : Line) (s : State) : State := setEntry l { entryAt s l with takenHigh := true, hold := true } s
    let t := run (.joinFrameEnd (.clean 2 false)) (withFrame .join (held 1 (held 5 (inState .joining))))
    t.control.state = .online ∧ (entryAt t 1).hold = false ∧ (entryAt t 5).hold = true ∧
      t.offer.records.map (·.source) = [.line 1] ∧ t.reports.queue.map (·.kind) = [.noPeer] := by decide +kernel

/-- A resumed JOIN with self-notices: a DONE, a RETURN below its record's attempt limit and one at it, and a stale RETURN; and a
record that none of them matches. -/
def rejoining : State :=
  withFrame .join (withSlot 0 (entryOf 2 14 (.notifying (.done 2) 0 0 none)) (withSlot 1 (entryOf 2 15 (.notifying .ret 1 0 none))
    (withInbound [copyOf 2 16 2 0 (.returning 2 0 none), copyOf 2 17 2 1 (.returning 3 0 none)]
      (withRecords [rec 14 0 (.outstanding 2 none), rec 15 0 (.outstanding 2 none),
          { rec 16 0 (.outstanding 2 none) with attempts := 1 }, { rec 17 0 (.outstanding 2 none) with generation := 1 },
          rec 18 0 .waiting]
        { inState .joining with work.noticeCounter := 4 }))))

theorem witness_JoinEndByClash_answers :
    let room := run (.joinFrameEnd (.clean 2 false)) rejoining
    let full := run (.joinFrameEnd (.clean 2 false)) (withReports 16 rejoining)
    room.reports.queue.map (·.kind) = [.completed, .refused, .stale] ∧ room.work.inbound = [] ∧
      room.work.slots = Vector.replicate 8 none ∧
      room.offer.records = [{ rec 15 0 .waiting with attempts := 1 }, { rec 17 0 (.outstanding 2 none) with generation := 1 },
        rec 18 0 .waiting] ∧
      full.offer.records.map (·.state) =
        [.resolved (.completed 2 2) 0, .waiting, .resolved (.refused 2) 1, .outstanding 2 none, .waiting] ∧
      full.work.inbound.map (·.state) = [.returning 3 0 (some ⟨.stale, 2⟩)] := by decide +kernel

theorem witness_JoinEndByClash_answersSound : rejoining.ListsSound ∧ rejoining.WorkSound ∧ rejoining.EntriesSound :=
  ⟨by unfold State.ListsSound; decide +kernel, work_of_no_hand rfl (by decide +kernel),
    by unfold State.EntriesSound; decide +kernel⟩

theorem witness_LeaveEndGoesOffline :
    let s := withFrame .leave { draining with control.leaveCandidate := true, bus.errorCount := 23 }
    online.bus.ownFrame = none ∧ s.held = false ∧ s.control.state = .draining ∧
      (s.bus.ownFrame.map (·.candidate)) = some .leave ∧ s.bus.errorCount + 8 ≤ 31 := by decide +kernel

/-- A count of 24 with each kind of frame in flight. -/
theorem witness_CountOf32Mutes :
    let offering : State := { busy with bus.errorCount := 24 }
    let joining := withFrame .join { inState .joining with bus.errorCount := 31 }
    let leaving := withFrame .leave { draining with control.leaveCandidate := true, bus.errorCount := 24 }
    let notifying := withFrame (.notice (.slot 1)) { busy with bus.errorCount := 24 }
    offering.held = false ∧ offering.control.state.sends = true ∧ 24 ≤ offering.bus.errorCount ∧
      (offering.bus.ownFrame.map (·.candidate)) = some (.offer 12) ∧ rec 12 0 (.offering false) ∈ offering.offer.records ∧
      offering.control.state = .online ∧ joining.control.state = .joining ∧
      (joining.bus.ownFrame.map (·.candidate)) = some .join ∧ (leaving.bus.ownFrame.map (·.candidate)) = some .leave ∧
      (notifying.bus.ownFrame.map (·.candidate)) = some (.notice (.slot 1)) := by decide +kernel

theorem witness_CountOf32Mutes_sound : ({ busy with bus.errorCount := 24 } : State).ListsSound := by
  unfold State.ListsSound; decide +kernel

/-- A NOTICE, a JOIN and a LEAVE that mute keep records and reports in front, and a line that waits makes its record behind. -/
theorem witness_CountOf32Mutes_keeps :
    let held (s : State) : State := withReports 3 (withRecords [rec 1 0 (.backoff 2), rec 2 0 (.outstanding 1 none)]
      { lineHigh 1 s with bus.errorCount := 24 })
    let sources (t : State) : List Source := t.offer.records.map (·.source)
    sources (run (.joinFrameEnd .void) (withFrame .join (held (inState .joining)))) = [.soft, .soft, .line 1] ∧
      sources (run (.leaveFrameEnd .broken) (withFrame .leave (held draining))) = [.soft, .soft, .line 1] ∧
      sources (run (.noticeFrameFate .void) (withFrame (.notice (.slot 1)) (held draining))) = [.soft, .soft, .line 1] ∧
      (run (.joinFrameEnd .void) (withFrame .join (held (inState .joining)))).reports.queue = List.replicate 3 aReport := by
  decide +kernel

/-- With a cancel asked; in DRAINING; and from JOINING with a roster that does not hold the station. -/
theorem witness_CountOf32Mutes_fates :
    let asked (st : StationState) (cancel : Bool) : State :=
      withFrame (.offer 7) (withRecords [rec 7 0 (.offering cancel)] { inState st with bus.errorCount := 24 })
    let ended (s : State) : State := run (.offerFrameEnd .void) s
    let joining := withFrame .join { inState .joining with bus.errorCount := 31, control.roster := 0 }
    rec 7 0 (.offering true) ∈ (asked .draining true).offer.records ∧ (asked .draining true).control.state.sends = true ∧
      (ended (asked .online true)).reports.queue.map (·.kind) = [.cancelled] ∧
      (ended (asked .draining true)).reports.queue.map (·.kind) = [.cancelled] ∧
      (ended (asked .draining false)).reports.queue.map (·.kind) = [.withdrawn] ∧
      (ended (asked .online false)).offer.records = [rec 7 0 .waiting] ∧
      (run (.joinFrameEnd .void) joining).control.roster = 4 := by decide +kernel

theorem witness_StationNumberHeld : (∀ straps, Instr.restart ≠ .resetRelease straps) ∧
    exec .restart busy = .next (run .restart busy) := ⟨by decide +kernel, rfl⟩

/-- Entry to DRAINING, which sets no flag, and to MUTED, which does. -/
theorem witness_StateChangedFlagMarksEntries : online.held = false ∧ (∀ straps, Instr.drain ≠ .resetRelease straps) ∧
    Instr.drain ≠ .status ∧ (run (.offerFrameEnd .void) { busy with bus.errorCount := 24 }).control.stateChanged = true := by
  decide +kernel

theorem witness_StateChangedFlagMarksEntries_next : exec .drain busy = .next (run .drain busy) := rfl

theorem witness_StateChangedFlagMarksEntries_sound : busy.ControlSound := busy_control

theorem witness_PortBytesReadBack : (Instr.submit 8 3 0 132 0).wellFormed = true ∧
    portBytes (.submit 8 3 0 132 0) = some [6, 8, 3, 0, 0, 132, 0, 0, 0, 0] ∧
    (Instr.unknownCommandByte 18).wellFormed = true ∧ portBytes (.unknownCommandByte 18) = some [18] := by decide +kernel

/-- One state and step for all six laws: the own OFFER of `busy` ends claimed. -/
theorem witness_staySound : ({ busy with pending := [.offerFrameEnd (.clean 4 1)] } : State).Sound ∧
    step { busy with pending := [.offerFrameEnd (.clean 4 1)] } = .next (run (.offerFrameEnd (.clean 4 1)) busy) :=
  ⟨busy_sound, rfl⟩

end Sys2Proof.Tests
end

section
/-! PROOFS. The state-changed flag (R62): which operations leave the station state and the flag as they are, what the
entries to station states make of them, and from both the flag over every command. -/

namespace Sys2Proof.Machine

/-! ### The standing of a station -/

/-- The two items that R62 relates: the station state and the state-changed flag. -/
structure Standing where
  state : StationState
  changed : Bool

def State.standing (s : State) : Standing := ⟨s.control.state, s.control.stateChanged⟩

/-- The states whose entry sets the flag (R62). -/
def StationState.EntrySignalled (st : StationState) : Prop :=
  st = .online ∨ st = .muted ∨ st = .faultClash ∨ st = .offline

/-- The flag is set after exactly where it was set before or a signalled state has been entered (R62). -/
def FlagFollows (before after : Standing) : Prop :=
  after.changed = true ↔ before.changed = true ∨ (after.state ≠ before.state ∧ after.state.EntrySignalled)

theorem FlagFollows.of_eq {a b : Standing} (h : b = a) : FlagFollows a b := by
  simp [FlagFollows, h]

theorem FlagFollows.unsignalled {a : Standing} {st : StationState} (h : ¬ st.EntrySignalled) :
    FlagFollows a ⟨st, a.changed⟩ := by
  simp [FlagFollows, h]

theorem FlagFollows.signalled {a : Standing} {st : StationState} (new : st ≠ a.state) (h : st.EntrySignalled) :
    FlagFollows a ⟨st, true⟩ := by
  simp [FlagFollows, new, h]

theorem not_entrySignalled_joining : ¬ StationState.joining.EntrySignalled := by simp [StationState.EntrySignalled]

theorem not_entrySignalled_draining : ¬ StationState.draining.EntrySignalled := by simp [StationState.EntrySignalled]

theorem entrySignalled_online : StationState.online.EntrySignalled := .inl rfl

theorem entrySignalled_muted : StationState.muted.EntrySignalled := .inr (.inl rfl)

theorem entrySignalled_faultClash : StationState.faultClash.EntrySignalled := .inr (.inr (.inl rfl))

theorem entrySignalled_offline : StationState.offline.EntrySignalled := .inr (.inr (.inr rfl))

/-! ### Shared operations that leave the standing -/

theorem standing_of_control {s t : State} (h : t.control = s.control) : t.standing = s.standing := by
  unfold State.standing; rw [h]

theorem OnlyTickets.standing {s t : State} (h : OnlyTickets s t) : t.standing = s.standing :=
  standing_of_control h.control

@[simp] theorem standing_respond (code : ResponseCode) (bytes : List Byte) (s : State) :
    (respond code bytes s).standing = s.standing := rfl

@[simp] theorem standing_answer (code : ResponseCode) (s : State) : (answer code s).standing = s.standing := rfl

@[simp] theorem standing_setAnswer (a : Answer) (s : State) : (setAnswer a s).standing = s.standing := rfl

@[simp] theorem standing_addToRoster (n : StationNumber) (s : State) : (addToRoster n s).standing = s.standing := rfl

@[simp] theorem standing_endOwnFrame (errors : Nat) (s : State) : (endOwnFrame errors s).standing = s.standing := rfl

/-- The drain test writes the drain's own items only (R56). -/
@[simp] theorem standing_testDrain (s : State) : (testDrain s).standing = s.standing := by
  unfold testDrain; split <;> rfl

@[simp] theorem standing_serveSources (s : State) : (serveSources s).standing = s.standing :=
  (onlyTickets_serveSources s).standing

@[simp] theorem standing_serveSource (l : Line) (s : State) : (serveSource l s).standing = s.standing :=
  (onlyTickets_serveSource l s).standing

@[simp] theorem standing_resolveRecord (r : OutRecord) (res : Resolution) (s : State) :
    (resolveRecord r res s).standing = s.standing := (onlyTickets_resolveRecord r res s).standing

@[simp] theorem standing_freeCopy (ref : CopyRef) (s : State) : (freeCopy ref s).standing = s.standing :=
  (onlyTickets_freeCopy ref s).standing

@[simp] theorem standing_writeNotice (n : HeldNotice) (s : State) : (writeNotice n s).standing = s.standing :=
  (onlyTickets_writeNotice n s).standing

@[simp] theorem standing_endCopy (n : HeldNotice) (how : CopyEnd) (s : State) :
    (endCopy n how s).standing = s.standing := (onlyTickets_endCopy n how s).standing

@[simp] theorem standing_handIfSelf (ref : CopyRef) (s : State) : (handIfSelf ref s).standing = s.standing :=
  (onlyTickets_handIfSelf ref s).standing

@[simp] theorem standing_handSelfNotices (s : State) : (handSelfNotices s).standing = s.standing :=
  (onlyTickets_handSelfNotices s).standing

@[simp] theorem standing_handSelfReturns (turned : List InRecord) (s : State) :
    (handSelfReturns turned s).standing = s.standing := (onlyTickets_handSelfReturns turned s).standing

theorem standing_makeNotice (i : Fin 8) (e : ServiceEntry) (kind : NoticeKind) (s : State) :
    (makeNotice i e kind s).standing = s.standing := by
  unfold makeNotice
  simp only
  split
  · exact standing_handIfSelf _ _
  · rfl

theorem standing_placeItem (item : WaitingItem) (s : State) : (placeItem item s).standing = s.standing := by
  cases item with
  | record r res =>
    have reported := (onlyTickets_pushReport (recordReport r res) s).trans (onlyTickets_leaveList r _)
    exact (reported.trans (onlyTickets_placeFreed r.source _)).standing
  | copy n how => exact standing_freeCopy n.ref _

theorem standing_placeWaiting (s : State) : (placeWaiting s).standing = s.standing := by
  unfold placeWaiting
  split
  · split
    · exact standing_placeItem _ s
    · rfl
  · rfl

theorem standing_orphanPeer (sender : StationNumber) (s : State) : (orphanPeer sender s).standing = s.standing := by
  unfold orphanPeer
  split
  · exact (onlyTickets_orphan sender s).standing
  · rfl

theorem standing_chooseOffer (tags : List Tag) (s : State) : (chooseOffer tags s).standing = s.standing := by
  induction tags generalizing s with
  | nil => rfl
  | cons tag rest ih =>
    unfold chooseOffer
    split
    · exact ih s
    · split
      · split
        · rfl
        · rw [ih, standing_resolveRecord]
      · exact ih s

theorem standing_chooseFrame (s : State) : (chooseFrame s).standing = s.standing := by
  unfold chooseFrame
  split
  · split <;> rfl
  · split
    · rfl
    · split
      · rfl
      · exact standing_chooseOffer _ s

theorem standing_whenReceiving {f : State → State} {s : State} (h : ∀ s, (f s).standing = s.standing) :
    (whenReceiving f s).standing = s.standing := by
  unfold whenReceiving
  split
  · exact h s
  · rfl

theorem standing_fromStation {f : State → State} {sender : StationNumber} {s : State}
    (h : ∀ s, (f s).standing = s.standing) : (fromStation sender f s).standing = s.standing := by
  unfold fromStation
  split
  · exact h s
  · rfl

/-! ### Commands that leave the standing -/

theorem standing_writeConfig (group field : Byte) (value : BitVec 40) (s : State) :
    (writeConfig group field value s).standing = s.standing := by
  unfold writeConfig
  split
  · rfl
  · split
    · rfl
    · split
      · rfl
      · split <;> rfl

theorem standing_readConfig (group field : Byte) (s : State) : (readConfig group field s).standing = s.standing := by
  unfold readConfig; split <;> rfl

theorem standing_submitCommand (cls level flag : Byte) (set : BitVec 16) (addr : Address) (s : State) :
    (submitCommand cls level flag set addr s).standing = s.standing := by
  unfold submitCommand
  split
  · rfl
  · split
    · rfl
    · split
      · rfl
      · exact (onlyTickets_createAndServe _ s).standing

theorem standing_cancelRecord (r : OutRecord) (s : State) : (cancelRecord r s).standing = s.standing := by
  unfold cancelRecord
  split
  case h_3 => rfl
  case h_5 => rfl
  all_goals rw [standing_answer, standing_testDrain, standing_resolveRecord]

theorem standing_cancelCommand (tag : Tag) (s : State) : (cancelCommand tag s).standing = s.standing := by
  unfold cancelCommand
  split
  · rfl
  · split
    · rfl
    · exact standing_cancelRecord _ s

theorem standing_queryCommand (tag : Tag) (s : State) : (queryCommand tag s).standing = s.standing := by
  unfold queryCommand; split <;> rfl

theorem standing_takeCommand (s : State) : (takeCommand s).standing = s.standing := by
  unfold takeCommand
  split
  · rfl
  · split
    · rfl
    · split
      · rfl
      · unfold takeRecord useAddress; split <;> rfl

theorem standing_disposeSlot (i : Fin 8) (kind : NoticeKind) (s : State) :
    (disposeSlot i kind s).standing = s.standing := by
  unfold disposeSlot
  split
  · rfl
  · split
    · rw [standing_answer, standing_testDrain, standing_makeNotice]
    · rfl

theorem standing_finishCommand (slot outcome : Byte) (s : State) :
    (finishCommand slot outcome s).standing = s.standing := by
  unfold finishCommand
  split
  · rfl
  · split
    · rfl
    · split
      · rfl
      · exact standing_disposeSlot _ _ s

theorem standing_handBackCommand (slot : Byte) (s : State) : (handBackCommand slot s).standing = s.standing := by
  unfold handBackCommand
  split
  · rfl
  · split
    · rfl
    · exact standing_disposeSlot _ _ s

theorem standing_reportCommand (s : State) : (reportCommand s).standing = s.standing := by
  unfold reportCommand
  split
  · rfl
  · rw [standing_respond, standing_testDrain, standing_placeWaiting]; rfl

theorem standing_unmaskLine (l : Line) (s : State) : (unmaskLine l s).standing = s.standing := by
  unfold unmaskLine
  simp only
  split
  · rw [standing_serveSources, standing_serveSource]; rfl
  · rfl

theorem standing_maskCommand (entry value : Byte) (s : State) : (maskCommand entry value s).standing = s.standing := by
  unfold maskCommand
  split
  · rfl
  · split
    · split
      · rfl
      · split
        · exact standing_unmaskLine _ s
        · rfl
    · rfl

theorem standing_touchCommand (addr : Address) (s : State) : (touchCommand addr s).standing = s.standing := by
  unfold touchCommand; split <;> rfl

theorem standing_forgetCommand (s : State) : (forgetCommand s).standing = s.standing := by
  unfold forgetCommand; split <;> rfl

theorem standing_edgeTaken (l : Line) (s : State) : (edgeTaken l s).standing = s.standing := by
  unfold edgeTaken
  split
  · split
    · exact ((onlyTickets_makeSourceRecord l s).trans (onlyTickets_serveSources _)).standing
    · rfl
  · rfl
  · rfl

theorem standing_lineActivated (l : Line) (s : State) : (lineActivated l s).standing = s.standing := by
  unfold lineActivated
  split
  · rfl
  · unfold lineActs
    split
    · rw [standing_serveSources, standing_serveSource]; rfl
    · split
      · rw [standing_edgeTaken]; rfl
      · rfl

theorem standing_lineInactivated (l : Line) (s : State) : (lineInactivated l s).standing = s.standing := by
  unfold lineInactivated
  split
  · simp only
    split <;> rfl
  · rfl

theorem standing_backoffExpired (tag : Tag) (s : State) : (backoffExpired tag s).standing = s.standing := by
  unfold backoffExpired
  split
  · split <;> rfl
  · rfl

theorem standing_deadlineExpired (tag : Tag) (s : State) : (deadlineExpired tag s).standing = s.standing := by
  unfold deadlineExpired
  split
  · split
    · rw [standing_testDrain]; exact (onlyTickets_lapse _ s).standing
    · rfl
  · rfl

theorem standing_drainLimitExpired (s : State) : (drainLimitExpired s).standing = s.standing := by
  unfold drainLimitExpired
  split
  · rw [standing_testDrain, (onlyTickets_withdrawRemaining _).standing]; rfl
  · rfl

theorem standing_quietSeen (s : State) : (quietSeen s).standing = s.standing := by
  unfold quietSeen; split <;> rfl

theorem standing_frameStart (s : State) :
    (if freeToStart s then testDrain (chooseFrame { s with claim.offerInHand := none }) else s).standing =
      s.standing := by
  split
  · rw [standing_testDrain, standing_chooseFrame]; rfl
  · rfl

theorem standing_commitClaim (h : OfferInHand) (s : State) : (commitClaim h s).standing = s.standing := by
  unfold commitClaim
  split
  · split
    · unfold commitUpgrade
      split
      · split <;> rfl
      · rfl
    · rfl
  · rfl

theorem standing_claimRead (bid : BitVec 6) (claimant : StationNumber) (confirm : Bool) (s : State) :
    (claimRead bid claimant confirm s).standing = s.standing := by
  unfold claimRead
  split
  · rfl
  · simp only
    split
    · split
      · rw [standing_commitClaim]; rfl
      · rfl
    · rfl

theorem standing_noticeAnswered (n : NoticeFields) (s : State) : (noticeAnswered n s).standing = s.standing := by
  unfold noticeAnswered
  split
  · split
    · rw [standing_testDrain, (onlyTickets_noticeAccepted _ _ _ _).standing]; rfl
    · rfl
  · rfl

theorem standing_noticeReceived (n : NoticeFields) (s : State) :
    (fromStation n.sender (fun s => if n.target = s.control.number then noticeAnswered n s else s) s).standing =
      s.standing := by
  refine standing_fromStation fun u => ?_
  split
  · exact standing_noticeAnswered n u
  · rfl

theorem standing_leaveRead (sender : StationNumber) (s : State) : (leaveRead sender s).standing = s.standing := by
  unfold leaveRead
  split
  · simp only [standing_testDrain]
    exact standing_orphanPeer sender s
  · rfl

/-! ### The entries to station states -/

theorem standing_enterJoining (resumed : Bool) (s : State) :
    (enterJoining resumed s).standing = ⟨.joining, s.standing.changed⟩ := rfl

theorem standing_restartTaken (s : State) : (restartTaken s).standing = ⟨.joining, s.standing.changed⟩ := rfl

theorem standing_drainTaken (s : State) : (drainTaken s).standing = ⟨.draining, s.standing.changed⟩ := by
  have drainStarted : (withdrawUnoffered (startDrain s)).standing = ⟨.draining, s.standing.changed⟩ :=
    (onlyTickets_withdrawUnoffered (startDrain s)).standing
  unfold drainTaken
  rw [standing_testDrain, ← drainStarted]
  exact standing_handSelfReturns _ (returnWaiting (withdrawUnoffered (startDrain s)))

theorem standing_enterOnline (presence : StationSet) (s : State) :
    (enterOnline presence s).standing = ⟨.online, true⟩ := by
  unfold enterOnline
  rw [standing_serveSources, standing_handSelfNotices]
  rfl

theorem standing_enterMuted (s : State) : (enterMuted s).standing = ⟨.muted, true⟩ := by
  unfold enterMuted
  rw [standing_serveSources]
  rfl

theorem standing_enterFaultClash (s : State) : (enterFaultClash s).standing = ⟨.faultClash, true⟩ := rfl

theorem standing_enterOffline (s : State) : (enterOffline s).standing = ⟨.offline, true⟩ := rfl

theorem ne_of_sends {st st' : StationState} (sends : st.sends = true) (silent : st'.sends = false) : st' ≠ st := by
  rintro rfl
  simp [sends] at silent

/-- The test of R42 at the end of an own frame: MUTED is a new state for a station that sent the frame. -/
theorem FlagFollows.thenMute {a : Standing} {t : State} (h : FlagFollows a t.standing) (sends : a.state.sends = true) :
    FlagFollows a (muteIfDue t).standing := by
  unfold muteIfDue
  split
  · rw [standing_enterMuted]
    exact .signalled (ne_of_sends sends rfl) entrySignalled_muted
  · exact h

/-! ### Own frames -/

theorem ownCandidate_sends {s : State} {c : Candidate} (h : ownCandidate s = some c) :
    s.control.state.sends = true := by
  unfold ownCandidate at h
  split at h
  · assumption
  · cases h

theorem ownCandidate_frame {s : State} {c : Candidate} (h : ownCandidate s = some c) :
    ∃ f, s.bus.ownFrame = some f ∧ f.candidate = c := by
  unfold ownCandidate at h
  split at h
  · simpa using h
  · cases h

/-- A sound station has in flight only what its state may send (R18, R40). -/
theorem State.ControlSound.sentIn {s : State} (sound : s.ControlSound) {c : Candidate} (h : ownCandidate s = some c) :
    c.sentIn s := by
  obtain ⟨f, hf, rfl⟩ := ownCandidate_frame h
  obtain ⟨-, -, -, -, -, -, -, -, frames, -⟩ := sound
  exact frames f hf

theorem standing_dropHand (fate : OfferFate) (s : State) : (dropHand fate s).standing = s.standing := by
  cases fate <;> rfl

theorem standing_learnClaimant (fate : OfferFate) (s : State) : (learnClaimant fate s).standing = s.standing := by
  unfold learnClaimant; split <;> rfl

theorem standing_offerEnded (tag : Tag) (fate : OfferFate) (s : State) :
    (offerEnded tag fate s).standing = s.standing := by
  unfold offerEnded
  split
  · rfl
  · split
    · exact (onlyTickets_offerDecided _ _ fate s).standing
    all_goals rfl

theorem offerFrameEnded_flagFollows (fate : OfferFate) (s : State) :
    FlagFollows s.standing (offerFrameEnded fate s).standing := by
  unfold offerFrameEnded
  split
  case h_1 tag own =>
    rw [standing_testDrain]
    refine FlagFollows.thenMute (.of_eq ?_) (ownCandidate_sends own)
    rw [standing_offerEnded, standing_learnClaimant, standing_dropHand, standing_endOwnFrame]
  all_goals exact .of_eq rfl

theorem standing_noticeEnded (n : HeldNotice) (fate : NoticeFate) (s : State) :
    (noticeEnded n fate s).standing = s.standing := by
  unfold noticeEnded
  split
  · rfl
  · rfl
  · rfl
  · unfold notDelivered
    simp only
    split
    · exact standing_writeNotice _ s
    · exact standing_endCopy _ _ s
  · exact standing_freeCopy _ s
  · exact standing_endCopy _ _ s

theorem noticeFrameEnded_flagFollows (fate : NoticeFate) (s : State) :
    FlagFollows s.standing (noticeFrameEnded fate s).standing := by
  unfold noticeFrameEnded
  split
  case h_1 ref own =>
    simp only [standing_testDrain]
    refine FlagFollows.thenMute (.of_eq ?_) (ownCandidate_sends own)
    split
    · rw [standing_noticeEnded, standing_endOwnFrame]
    · rfl
  all_goals exact .of_eq rfl

/-- Here the invariant is needed: the station's own JOIN is in flight in JOINING, so ONLINE is a new state. -/
theorem joinFrameEnded_flagFollows (fate : JoinFate) {s : State} (sound : s.ControlSound) :
    FlagFollows s.standing (joinFrameEnded fate s).standing := by
  unfold joinFrameEnded
  split
  case h_1 own =>
    have joining : s.control.state = .joining := sound.sentIn own
    refine FlagFollows.thenMute ?_ (ownCandidate_sends own)
    unfold joinEnded
    split
    · rw [standing_enterOnline]
      exact .signalled (by simp [State.standing, joining]) entrySignalled_online
    · rw [standing_enterFaultClash]
      exact .signalled (by simp [State.standing, joining]) entrySignalled_faultClash
    all_goals exact .of_eq rfl
  all_goals exact .of_eq rfl

theorem leaveFrameEnded_flagFollows (fate : LeaveFate) (s : State) :
    FlagFollows s.standing (leaveFrameEnded fate s).standing := by
  unfold leaveFrameEnded
  split
  case h_1 own =>
    have sends := ownCandidate_sends own
    refine FlagFollows.thenMute ?_ sends
    cases fate with
    | clean =>
      rw [leaveEnded, standing_enterOffline]
      exact .signalled (ne_of_sends sends rfl) entrySignalled_offline
    | lost => exact .of_eq rfl
    | broken => exact .of_eq rfl
    | void => exact .of_eq rfl
  all_goals exact .of_eq rfl

/-! ### Commands of station control, and another station's JOIN -/

theorem enterJoining_flagFollows (resumed : Bool) (s : State) :
    FlagFollows s.standing (answer .ok (enterJoining resumed s)).standing := by
  rw [standing_answer, standing_enterJoining]
  exact .unsignalled not_entrySignalled_joining

theorem joinCommand_flagFollows (s : State) : FlagFollows s.standing (joinCommand s).standing := by
  unfold joinCommand
  split
  · unfold firstJoin
    split
    · exact enterJoining_flagFollows false (applyStartMasked { s with control.locked := true })
    · exact .of_eq rfl
  · exact enterJoining_flagFollows _ s
  · exact enterJoining_flagFollows _ s
  · exact enterJoining_flagFollows _ s
  all_goals exact .of_eq rfl

theorem drainCommand_flagFollows (s : State) : FlagFollows s.standing (drainCommand s).standing := by
  unfold drainCommand
  split
  · rw [standing_answer, standing_drainTaken]
    exact .unsignalled not_entrySignalled_draining
  · exact .of_eq rfl

theorem restartCommand_flagFollows (s : State) : FlagFollows s.standing (restartCommand s).standing := by
  unfold restartCommand
  split
  · rw [standing_answer, standing_restartTaken]
    exact .unsignalled not_entrySignalled_joining
  · exact .of_eq rfl

theorem joinRead_flagFollows (sender : StationNumber) (resumed clash : Bool) (s : State) :
    FlagFollows s.standing (joinRead sender resumed clash s).standing := by
  unfold joinRead
  split
  · exact .of_eq rfl
  · split
    · rename_i own
      have new : StationState.faultClash ≠ s.control.state := by
        obtain ⟨-, joining | muted⟩ := own
        · simp [joining]
        · simp [muted]
      rw [standing_enterFaultClash]
      exact .signalled new entrySignalled_faultClash
    · split
      · exact .of_eq rfl
      · refine .of_eq ?_
        rw [standing_testDrain, standing_addToRoster, standing_orphanPeer]

theorem joinReceived_flagFollows (sender : StationNumber) (resumed clash : Bool) (s : State) :
    FlagFollows s.standing
      (fromStation sender (fun s => joinRead sender resumed clash (setAnswer .none s)) s).standing := by
  unfold fromStation
  split
  · exact joinRead_flagFollows sender resumed clash (setAnswer .none s)
  · exact .of_eq rfl

/-! ### The flag over all commands -/

theorem effect_flagFollows {c : Instr} {s : State} (sound : s.ControlSound)
    (notRelease : ∀ straps, c ≠ .resetRelease straps) (notStatus : c ≠ .status) :
    FlagFollows s.standing (effect c s).standing := by
  cases c with
  | resetAssert => exact .of_eq rfl
  | resetRelease straps => exact absurd rfl (notRelease straps)
  | configWrite group field value => exact .of_eq (standing_writeConfig group field value s)
  | configRead group field => exact .of_eq (standing_readConfig group field s)
  | join => exact joinCommand_flagFollows s
  | drain => exact drainCommand_flagFollows s
  | restart => exact restartCommand_flagFollows s
  | submit cls level flag set addr => exact .of_eq (standing_submitCommand cls level flag set addr s)
  | cancel tag => exact .of_eq (standing_cancelCommand tag s)
  | query tag => exact .of_eq (standing_queryCommand tag s)
  | take => exact .of_eq (standing_takeCommand s)
  | finish slot outcome => exact .of_eq (standing_finishCommand slot outcome s)
  | handBack slot => exact .of_eq (standing_handBackCommand slot s)
  | report => exact .of_eq (standing_reportCommand s)
  | status => exact absurd rfl notStatus
  | mask entry value => exact .of_eq (standing_maskCommand entry value s)
  | touch addr => exact .of_eq (standing_touchCommand addr s)
  | forget => exact .of_eq (standing_forgetCommand s)
  | roster => exact .of_eq rfl
  | unknownCommandByte byte => exact .of_eq rfl
  | transactionDiscarded => exact .of_eq rfl
  | lineBecomesActive line => exact .of_eq (standing_lineActivated line s)
  | lineBecomesInactive line => exact .of_eq (standing_lineInactivated line s)
  | deadlineTick => exact .of_eq rfl
  | backoffExpiry tag => exact .of_eq (standing_backoffExpired tag s)
  | deadlineExpiry tag => exact .of_eq (standing_deadlineExpired tag s)
  | drainLimitExpiry => exact .of_eq (standing_drainLimitExpired s)
  | synchronisationQuiet => exact .of_eq (standing_quietSeen s)
  | unreadableKind kind => exact .of_eq (standing_whenReceiving (fun _ => rfl))
  | frameStart => exact .of_eq (standing_frameStart s)
  | offerValidated offer => exact .of_eq (standing_fromStation (fun _ => rfl))
  | claimAsRead bid claimant confirm =>
    exact .of_eq (standing_whenReceiving (standing_claimRead bid claimant confirm))
  | noticeReceived notice => exact .of_eq (standing_noticeReceived notice s)
  | noticeSenderLearned sender => exact .of_eq (standing_fromStation (fun _ => rfl))
  | joinAnswer sender => exact .of_eq (standing_fromStation (fun _ => rfl))
  | joinReceived sender resumed clash => exact joinReceived_flagFollows sender resumed clash s
  | leaveReceived sender =>
    exact .of_eq (standing_fromStation (fun _ => standing_leaveRead sender (setAnswer _ _)))
  | offerFrameEnd fate => exact offerFrameEnded_flagFollows fate s
  | noticeFrameFate fate => exact noticeFrameEnded_flagFollows fate s
  | joinFrameEnd fate => exact joinFrameEnded_flagFollows fate sound
  | leaveFrameEnd fate => exact leaveFrameEnded_flagFollows fate s
  | checkFoundBad => exact .of_eq (standing_whenReceiving (fun _ => rfl))

theorem exec_flagFollows {c : Instr} {s t : State} (sound : s.ControlSound)
    (notRelease : ∀ straps, c ≠ .resetRelease straps) (notStatus : c ≠ .status) (h : exec c s = .next t) :
    FlagFollows s.standing t.standing := by
  obtain ⟨u, hu, result⟩ := exec_next c s
  obtain rfl : u = t := by simpa [hu] using h
  rcases result with rfl | rfl
  · exact .of_eq rfl
  · exact effect_flagFollows sound notRelease notStatus

theorem statusCommand_lastByte (s : State) :
    (statusCommand s).port.response.getLast? = some (flagByte s.control.stateChanged) := by
  simp [statusCommand, respond, statusBytes]

theorem flagByte_eq_one {b : Bool} : flagByte b = 1 ↔ b = true := by
  cases b <;> decide

theorem atnLow_of_stateChanged {s : State} (run : s.held = false) (changed : s.control.stateChanged = true)
    (enabled : s.control.config.station.enableStateChange = true) : atnLow s = true := by
  simp [atnLow, attentionStateChange, run, changed, enabled]

/-- Settles O50: STATUS and reset by their results, every other command by `exec_flagFollows`. -/
theorem stateChangedFlagMarksEntries : Obligations.StateChangedFlagMarksEntries := by
  refine ⟨fun s run => ?_, fun straps s => ⟨_, rfl, rfl⟩, fun s => atnLow_of_stateChanged, ?_⟩
  · refine ⟨statusCommand s, exec_of_run run .status, rfl, rfl, ?_⟩
    rw [statusCommand_lastByte, Option.some_inj, flagByte_eq_one]
  · intro c s t sound notRelease notStatus h
    exact exec_flagFollows sound notRelease notStatus h

end Sys2Proof.Machine
end

section
/-! PROOFS. The sources served by a line event and by MASK (R66 to R73): what making a line's record leaves in its entry, when
nothing else is served, and from both the edge line and the mask. -/

namespace Sys2Proof.Machine

/-! ### Station states -/

theorem creates_iff {st : StationState} : st.creates = true ↔ st = .online ∨ st = .muted := by
  cases st <;> simp [StationState.creates]

theorem not_creates_iff {st : StationState} : st.creates = false ↔ st ≠ .online ∧ st ≠ .muted := by
  rw [← Bool.not_eq_true, creates_iff, not_or]

theorem not_started_iff {st : StationState} : st.started = false ↔ st = .unconfigured ∨ st = .faultNumber := by
  cases st <;> simp [StationState.started]

theorem started_iff {st : StationState} : st.started = true ↔ st ≠ .unconfigured ∧ st ≠ .faultNumber := by
  rw [← Bool.not_eq_false, not_started_iff, not_or]

theorem isLevel_iff {s : State} {l : Line} : isLevel s l = true ↔ (s.control.config.sourceConfig l).trigger = .level :=
  beq_iff_eq

theorem not_isLevel_of_edge {s : State} {l : Line} (h : (s.control.config.sourceConfig l).trigger = .edge) :
    isLevel s l = false := by
  simp [isLevel, h]

/-! ### The own entry of a record that ends NO-PEER (R67, R72) -/

theorem entryAt_holdSource_self (l : Line) (s : State) :
    entryAt (holdSource (.line l) s) l = { entryAt s l with hold := isLevel s l || (entryAt s l).hold } := by
  by_cases level : isLevel s l = true <;> simp [holdSource, level]

theorem entryAt_leaveList_self {r : OutRecord} {l : Line} {tag : Tag} {s : State} (own : r.source = .line l)
    (live : (entryAt s l).state = .live tag false) :
    entryAt (leaveList r s) l = { entryAt s l with state := .quiet } := by
  have kept : entryAt { s with offer.records := dropRecord r.tag s.offer.records } l = entryAt s l := rfl
  simp [leaveList, releaseSource, own, kept, live]

/-- A NO-PEER end sets a level entry's hold, and frees the entry where its record leaves the list at once (R67, R72, R93). -/
theorem entryAt_fixResolution_noPeer {r : OutRecord} {l : Line} {tag : Tag} {s : State} (own : r.source = .line l)
    (live : (entryAt s l).state = .live tag false) :
    entryAt (fixResolution r .noPeer s) l = { entryAt s l with
      state := if leavesAtOnce r s then .quiet else .live tag false
      hold := isLevel s l || (entryAt s l).hold } := by
  have drawn : entryAt (numberDrawn r .noPeer s) l =
      { entryAt s l with hold := isLevel s l || (entryAt s l).hold } := by
    rw [numberDrawn, if_pos rfl, own]
    exact entryAt_holdSource_self l (countResolution s)
  have drawnLive : (entryAt (numberDrawn r .noPeer s) l).state = .live tag false := by rw [drawn]; exact live
  rw [fixResolution_eq]
  by_cases report : (classOf s r.cls).report = true
  · by_cases room : reportRoom s = true
    · rw [if_pos report, if_pos room, entryAt_leaveList_self (s := pushReport _ _) own drawnLive]
      simp only [leavesAtOnce, room, Bool.or_true, if_true]
      exact congrArg (fun e => { e with state := EntryState.quiet }) drawn
    · rw [if_pos report, if_neg room]
      simp only [leavesAtOnce, report, room, Bool.not_true, Bool.or_false, Bool.false_eq_true, if_false, ← live]
      exact drawn
  · rw [if_neg report, entryAt_leaveList_self own drawnLive, drawn]
    simp [leavesAtOnce, report]

/-! ### A line's record made (R66) -/

theorem setEntry_setEntry (l : Line) (e e' : SourceEntry) (s : State) :
    setEntry l e' (setEntry l e s) = setEntry l e' s := by
  simp [setEntry]

/-- The record and the entry made LIVE are the same whatever was written to the entry before (R66). -/
theorem makeSourceRecord_setEntry (l : Line) (e : SourceEntry) (s : State) :
    makeSourceRecord l (setEntry l e s) =
      createRecord (sourceFields s l) (setEntry l { e with state := .live (nextTag s) false } s) := by
  unfold makeSourceRecord
  rw [entryAt_setEntry, if_pos rfl, setEntry_setEntry]
  rfl

/-- The record that a line makes after a write to its entry is the one its configured values give. -/
theorem makeSourceRecord_setEntry_madeIn (l : Line) (e : SourceEntry) (s : State) :
    MadeIn (lineRecord l (nextTag s) s) s (makeSourceRecord l (setEntry l e s)) := by
  rw [makeSourceRecord_setEntry]
  exact createRecord_madeIn (sourceFields s l) (setEntry l _ s)

section
variable {l : Line} {e : SourceEntry} {s : State}

theorem entryAt_makeSourceRecord_meets (meets : setsMeet (s.control.config.sourceConfig l).dest s.control.roster = true) :
    entryAt (makeSourceRecord l (setEntry l e s)) l = { e with state := .live (nextTag s) false } := by
  set live : SourceEntry := { e with state := .live (nextTag s) false }
  have made : makeSourceRecord l (setEntry l e s) = placeRecord (lineRecord l (nextTag s) s) (setEntry l live s) := by
    rw [makeSourceRecord_setEntry]
    exact if_pos meets
  have kept : entryAt (placeRecord (lineRecord l (nextTag s) s) (setEntry l live s)) l = entryAt (setEntry l live s) l := rfl
  rw [made, kept, entryAt_setEntry, if_pos rfl]

/-- With no peer the entry is LIVE while its record waits for report room, else QUIET, a level entry with its hold set
(R67, R72). -/
theorem entryAt_makeSourceRecord_noPeer
    (apart : setsMeet (s.control.config.sourceConfig l).dest s.control.roster = false) :
    entryAt (makeSourceRecord l (setEntry l e s)) l = { e with
      state := if (classOf s (lineRecord l (nextTag s) s).cls).report = true ∧ 16 ≤ s.reports.queue.length then
          .live (nextTag s) false
        else .quiet
      hold := isLevel s l || e.hold } := by
  set r := lineRecord l (nextTag s) s
  set live : SourceEntry := { e with state := .live (nextTag s) false }
  set placed := placeRecord r (setEntry l live s)
  have made : makeSourceRecord l (setEntry l e s) = fixResolution r .noPeer placed := by
    rw [makeSourceRecord_setEntry]
    exact if_neg (by simpa [newRecord, sourceFields] using apart)
  have entry : entryAt placed l = live := by
    have kept : entryAt placed l = entryAt (setEntry l live s) l := rfl
    rw [kept, entryAt_setEntry, if_pos rfl]
  have leaves : leavesAtOnce r placed = true ↔ ¬ ((classOf s r.cls).report = true ∧ 16 ≤ s.reports.queue.length) := by
    have same : leavesAtOnce r placed = (!(classOf s r.cls).report || decide (s.reports.queue.length < 16)) := rfl
    rw [same, Bool.or_eq_true, Bool.not_eq_true', decide_eq_true_eq, ← Bool.not_eq_true, not_and_or, not_le]
  have level : isLevel placed l = isLevel s l := rfl
  rw [made, entryAt_fixResolution_noPeer (l := l) (tag := nextTag s) rfl (by rw [entry]), entry, level]
  simp only [leaves, ite_not, live]

end

/-! ### Nothing else is served (R71) -/

theorem State.ServedSound.not_waiting {s : State} (sound : s.ServedSound) (room : s.offer.records.length < 32)
    (k : Line) : waitingSource s k = false := by
  obtain ⟨full, -⟩ := sound
  by_contra waits
  have := full k (by simpa using waits)
  omega

theorem waitingSource_setEntry_of_ne {l k : Line} (h : l ≠ k) (e : SourceEntry) (s : State) :
    waitingSource (setEntry l e s) k = waitingSource s k :=
  waitingSource_congr rfl (by simp [h])

/-- In a sound station with a place free, a line's own record is the only one that a write to its entry lets make. -/
theorem serveSources_makeSourceRecord {s : State} (sound : s.ServedSound) (room : s.offer.records.length < 32) (l : Line)
    (e : SourceEntry) :
    serveSources (makeSourceRecord l (setEntry l e s)) = makeSourceRecord l (setEntry l e s) := by
  refine serveSources_none fun k => ?_
  rw [makeSourceRecord_waiting]
  split
  · rfl
  · rename_i other
    rw [waitingSource_setEntry_of_ne other, sound.not_waiting room]

theorem serveSource_idle {l : Line} {s : State} (idle : waitingSource s l = false ∨ 32 ≤ s.offer.records.length) :
    serveSource l s = s := by
  refine if_neg ?_
  rw [Bool.and_eq_true, recordRoom_iff]
  rintro ⟨waits, room⟩
  rcases idle with idle | full
  · rw [idle] at waits; cases waits
  · omega

theorem serveSource_waiting {l : Line} {s : State} (waits : waitingSource s l = true)
    (room : s.offer.records.length < 32) : serveSource l s = makeSourceRecord l s :=
  if_pos (by rw [waits, recordRoom_iff.2 room]; rfl)

theorem serveSources_idle {s : State} (idle : (∀ k, waitingSource s k = false) ∨ 32 ≤ s.offer.records.length) :
    serveSources s = s :=
  idle.elim serveSources_none serveSources_full

/-! ### An edge (R65, R68) -/

/-- The entry with its taken level changed (R65). -/
def turnedEntry (e : SourceEntry) : SourceEntry := { e with takenHigh := !e.takenHigh, oppositeSeen := false }

theorem takeLevel_activeLevel {l : Line} {s : State} (inactive : lineActive s l = false) :
    takeLevel l (activeLevel s l) s = setEntry l (turnedEntry (entryAt s l)) s := by
  have differs : (entryAt s l).takenHigh ≠ activeLevel s l := beq_eq_false_iff_ne.1 inactive
  have level : activeLevel s l = !(entryAt s l).takenHigh := Bool.eq_not.2 differs.symm
  rw [takeLevel, level, turnedEntry]

theorem lineActivated_edge {l : Line} {s : State} (edge : (s.control.config.sourceConfig l).trigger = .edge)
    (inactive : lineActive s l = false) :
    lineActivated l s = if s.control.state.creates && !(entryAt s l).masked then
        edgeTaken l (setEntry l (turnedEntry (entryAt s l)) s)
      else setEntry l (turnedEntry (entryAt s l)) s := by
  have turned : isLevel (setEntry l (turnedEntry (entryAt s l)) s) l = false := not_isLevel_of_edge edge
  simp only [lineActivated, inactive, takeLevel_activeLevel inactive, lineActs, turned, Bool.false_eq_true, if_false,
    setEntry_control, entryAt_setEntry, if_true]
  rfl

section
variable {l : Line} {e : SourceEntry} {s : State}

theorem edgeTaken_quiet_room (quiet : e.state = .quiet) (room : s.offer.records.length < 32) :
    edgeTaken l (setEntry l e s) = serveSources (makeSourceRecord l (setEntry l e s)) := by
  have free : recordRoom (setEntry l e s) = true := recordRoom_iff.2 room
  simp [edgeTaken, quiet, free]

theorem edgeTaken_quiet_full (quiet : e.state = .quiet) (full : 32 ≤ s.offer.records.length) :
    edgeTaken l (setEntry l e s) = setEntry l { e with state := .latched } s := by
  have taken : ¬ recordRoom (setEntry l e s) = true := by rw [recordRoom_iff]; exact not_lt.2 full
  simp [edgeTaken, quiet, taken, setEntry_setEntry]

theorem edgeTaken_latched (latched : e.state = .latched) : edgeTaken l (setEntry l e s) = setEntry l e s := by
  simp [edgeTaken, latched]

theorem edgeTaken_live {tag : Tag} {merged : Bool} (live : e.state = .live tag merged) :
    edgeTaken l (setEntry l e s) = setEntry l { e with state := .live tag true } s := by
  simp [edgeTaken, live, setEntry_setEntry]

end

/-- Settles O25: the taken level changes, and `edgeTaken` acts by the entry's state. -/
theorem edgeLineByEntryState : Obligations.EdgeLineByEntryState := by
  intro l s run edge inactive taken
  have exec_eq : exec (.lineBecomesActive l) s = .next (lineActivated l s) := exec_of_run run _
  rw [exec_eq, lineActivated_edge edge inactive]
  refine ⟨fun ignored => ?_, fun creating unmasked => ?_⟩
  · have idle : ¬ (s.control.state.creates && !(entryAt s l).masked) = true := by
      rcases ignored with silent | masked
      · simp [not_creates_iff.2 silent]
      · simp [masked]
    rw [if_neg idle]
    rfl
  · have acts : (s.control.state.creates && !(entryAt s l).masked) = true := by
      simp [creates_iff.2 creating, unmasked]
    rw [if_pos acts]
    refine ⟨fun quiet room sound => ?_, fun quiet full => ?_, fun latched => ?_, fun tag merged live => ?_⟩
    · rw [edgeTaken_quiet_room (e := turnedEntry (entryAt s l)) quiet room, serveSources_makeSourceRecord sound room]
      have only := onlyTickets_makeSourceRecord l (setEntry l taken s)
      refine ⟨_, nextTag s, rfl, nextTag_firstFree room, makeSourceRecord_setEntry_madeIn l taken s, only.port, only.bus,
        only.control, only.claim, only.work, fun k other => ?_, entryAt_makeSourceRecord_meets, fun apart => ?_⟩
      · rw [entryAt_makeSourceRecord other.symm, entryAt_setEntry, if_neg other.symm]
      · refine (entryAt_makeSourceRecord_noPeer apart).trans ?_
        rw [not_isLevel_of_edge edge, Bool.false_or]
        rfl
    · rw [edgeTaken_quiet_full (e := turnedEntry (entryAt s l)) quiet full]; rfl
    · rw [edgeTaken_latched (e := turnedEntry (entryAt s l)) latched]; rfl
    · rw [edgeTaken_live (e := turnedEntry (entryAt s l)) live]; rfl

/-! ### MASK (R73, R190) -/

/-- The entry with its mask and its hold cleared (R73). -/
def unmaskedEntry (e : SourceEntry) : SourceEntry := { e with masked := false, hold := false }

theorem unmaskLine_eq (l : Line) (s : State) :
    unmaskLine l s = if isLevel s l then serveSources (serveSource l (setEntry l (unmaskedEntry (entryAt s l)) s))
      else setEntry l (unmaskedEntry (entryAt s l)) s := rfl

theorem maskedEntry_eq (e : SourceEntry) : maskedEntry e = { e with
    masked := true
    state := match e.state with
      | .quiet => .quiet
      | .latched => .quiet
      | .live tag _ => .live tag false } := by
  obtain ⟨state, masked, hold, high, seen⟩ := e
  cases state <;> rfl

section
variable {entry value : Byte} {s : State}

theorem maskCommand_state (stopped : s.control.state.started = false) : maskCommand entry value s = answer .state s := by
  simp [maskCommand, stopped]

theorem maskCommand_param (started : s.control.state.started = true) (bad : 7 < entry.toNat ∨ 1 < value.toNat) :
    maskCommand entry value s = answer .param s := by
  unfold maskCommand
  rw [if_neg (by simp [started])]
  split
  · have high : 1 < value.toNat := by omega
    have notOne : value ≠ 1 := by rintro rfl; simp at high
    have notZero : value ≠ 0 := by rintro rfl; simp at high
    rw [if_neg notOne, if_neg notZero]
  · rfl

theorem maskCommand_set {l : Line} (started : s.control.state.started = true) (names : entry.toNat = l.val) :
    maskCommand entry 1 s = answer .ok (setEntry l (maskedEntry (entryAt s l)) s) := by
  have line : ∀ h : entry.toNat < 8, (⟨entry.toNat, h⟩ : Line) = l := fun _ => Fin.ext names
  have inRange : entry.toNat < 8 := names ▸ l.isLt
  simp [maskCommand, started, inRange, line]

theorem maskCommand_clear {l : Line} (started : s.control.state.started = true) (names : entry.toNat = l.val) :
    maskCommand entry 0 s = answer .ok (unmaskLine l s) := by
  have line : ∀ h : entry.toNat < 8, (⟨entry.toNat, h⟩ : Line) = l := fun _ => Fin.ext names
  have inRange : entry.toNat < 8 := names ▸ l.isLt
  simp [maskCommand, started, inRange, line]

end

theorem waitingSource_unmasked (l : Line) (s : State) :
    waitingSource (setEntry l (unmaskedEntry (entryAt s l)) s) l = (s.control.state.creates &&
      ((entryAt s l).state == .latched || (isLevel s l && (entryAt s l).state == .quiet && lineActive s l))) := by
  simp [waitingSource, isLevel, lineActive, unmaskedEntry]

/-- A LATCHED entry is unmasked, and would wait beside the free place (R71, R73). -/
theorem State.ServedSound.not_latched {s : State} (sound : s.ServedSound) (room : s.offer.records.length < 32)
    (creates : s.control.state.creates = true) (l : Line) : (entryAt s l).state ≠ .latched := by
  intro latched
  have idle := sound.not_waiting room l
  obtain ⟨-, maskedClear, -⟩ := sound
  have unmasked : (entryAt s l).masked = false := by
    by_contra masked
    exact (maskedClear l (by simpa using masked)).1 latched
  simp [waitingSource, creates, unmasked, latched] at idle

/-- In a sound station the cleared mask lets no entry make a record but a QUIET one of an active line, with a place free. -/
theorem unmaskLine_idle {l : Line} {s : State} (sound : s.ServedSound)
    (idle : (s.control.config.sourceConfig l).trigger = .edge ∨ (s.control.state ≠ .online ∧ s.control.state ≠ .muted) ∨
      (entryAt s l).state ≠ .quiet ∨ lineActive s l = false ∨ 32 ≤ s.offer.records.length) :
    unmaskLine l s = setEntry l (unmaskedEntry (entryAt s l)) s := by
  rw [unmaskLine_eq]
  split
  case isFalse => rfl
  case isTrue level =>
    have nothing : (∀ k, waitingSource (setEntry l (unmaskedEntry (entryAt s l)) s) k = false) ∨
        32 ≤ s.offer.records.length := by
      refine (lt_or_ge s.offer.records.length 32).imp_left fun room k => ?_
      by_cases other : l = k
      · subst other
        rw [waitingSource_unmasked]
        cases creates : s.control.state.creates with
        | false => rfl
        | true =>
          have unlatched := sound.not_latched room creates l
          rcases idle with edge | silent | busy | inactive | full
          · rw [not_isLevel_of_edge edge] at level; cases level
          · rw [not_creates_iff.2 silent] at creates; cases creates
          · simp [unlatched, busy]
          · simp [unlatched, inactive]
          · omega
      · rw [waitingSource_setEntry_of_ne other, sound.not_waiting room]
    have own : serveSource l (setEntry l (unmaskedEntry (entryAt s l)) s) = _ :=
      serveSource_idle (nothing.imp_left fun none => none l)
    rw [own, serveSources_idle nothing]

theorem unmaskLine_makes {l : Line} {s : State} (sound : s.ServedSound) (level : isLevel s l = true)
    (creates : s.control.state.creates = true) (quiet : (entryAt s l).state = .quiet) (active : lineActive s l = true)
    (room : s.offer.records.length < 32) :
    unmaskLine l s = makeSourceRecord l (setEntry l (unmaskedEntry (entryAt s l)) s) := by
  have waits : waitingSource (setEntry l (unmaskedEntry (entryAt s l)) s) l = true := by
    rw [waitingSource_unmasked]
    simp [creates, level, quiet, active]
  rw [unmaskLine_eq, if_pos level, serveSource_waiting waits room, serveSources_makeSourceRecord sound room]

/-- Settles O22: the checks in their order, the mask set, and `unmaskLine` idle or making the entry's record. -/
theorem maskSetAndCleared : Obligations.MaskSetAndCleared := by
  intro entry value s run
  have exec_eq : exec (.mask entry value) s = .next (maskCommand entry value s) := exec_of_run run _
  rw [exec_eq]
  refine ⟨fun stopped => ?_, fun configured numbered bad => ?_, fun l configured numbered names => ⟨?_, ?_⟩⟩
  · rw [maskCommand_state (not_started_iff.2 stopped)]
  · rw [maskCommand_param (started_iff.2 ⟨configured, numbered⟩) bad]
  · rintro rfl
    rw [maskCommand_set (started_iff.2 ⟨configured, numbered⟩) names, maskedEntry_eq]
    rfl
  · rintro rfl sound
    rw [maskCommand_clear (started_iff.2 ⟨configured, numbered⟩) names]
    refine ⟨fun idle => ?_, fun trigger creating quiet active room => ?_⟩
    · rw [unmaskLine_idle sound idle]; rfl
    · have level := isLevel_iff.2 trigger
      rw [unmaskLine_makes sound level (creates_iff.2 creating) quiet active room]
      have only := onlyTickets_makeSourceRecord l (setEntry l (unmaskedEntry (entryAt s l)) s)
      refine ⟨_, nextTag s, rfl, nextTag_firstFree room, makeSourceRecord_setEntry_madeIn l _ s,
        congrArg (fun p : LocalPort => { p with response := [ResponseCode.ok.byte], shifted := 0 }) only.port, only.bus,
        only.control, only.claim, only.work, fun k other => ?_, ?_, entryAt_makeSourceRecord_meets, fun apart => ?_⟩
      · refine (entryAt_makeSourceRecord other.symm _).trans ?_
        rw [entryAt_setEntry, if_neg other.symm]
      · refine (only.masks l).1.trans ?_
        rw [entryAt_setEntry, if_pos rfl]
        rfl
      · refine (congrArg SourceEntry.hold (entryAt_makeSourceRecord_noPeer apart)).trans ?_
        rw [level]
        rfl

end Sys2Proof.Machine
end

section
/-! PROOFS. A notice at its originator (R33, R100 to R105): which record it matches, what an accepted word does to that
record, and from both the answer to every notice. -/

namespace Sys2Proof.Machine

/-! ### Station states and record states -/

theorem answers_iff {st : StationState} : st.answers = true ↔ st = .online ∨ st = .draining := by
  cases st <;> simp [StationState.answers]

theorem not_answers_of_silent {st : StationState} (h : st = .joining ∨ st = .muted) : st.answers = false := by
  rcases h with rfl | rfl <;> rfl

theorem isOutstandingWith_iff {peer : StationNumber} {st : RecordState} :
    st.isOutstandingWith peer = true ↔ ∃ timer, st = .outstanding peer timer := by
  cases st <;> simp [RecordState.isOutstandingWith]

/-! ### The record a notice matches (R100) -/

theorem matchNotice_none {tag : Tag} {generation : Generation} {sender : StationNumber} {s : State} :
    matchNotice tag generation sender s = none ↔
      ∀ r ∈ s.offer.records, r.tag = tag → r.generation = generation →
        ∀ timer, r.state ≠ .outstanding sender timer := by
  simp [matchNotice, isOutstandingWith_iff]

theorem matchNotice_some {tag : Tag} {generation : Generation} {sender : StationNumber} {s : State} {r : OutRecord}
    (h : matchNotice tag generation sender s = some r) : r ∈ s.offer.records ∧ r.tag = tag := by
  have found := List.find?_some h
  simp only [Bool.and_eq_true, beq_iff_eq] at found
  exact ⟨List.mem_of_find?_eq_some h, found.1.1⟩

/-- With no tag twice, no other record can be the one found. -/
theorem matchNotice_of_mem {s : State} (nd : (s.offer.records.map (·.tag)).Nodup) {r : OutRecord}
    (mem : r ∈ s.offer.records) {sender : StationNumber} {timer : Option Nat}
    (claimed : r.state = .outstanding sender timer) : matchNotice r.tag r.generation sender s = some r := by
  cases found : matchNotice r.tag r.generation sender s with
  | none => exact absurd claimed (matchNotice_none.1 found r mem rfl rfl timer)
  | some x =>
    obtain ⟨memX, tagX⟩ := matchNotice_some found
    rw [tag_inj nd memX mem tagX]

/-! ### What an accepted notice does to its record (R102 to R104) -/

section
variable {sender : StationNumber} {r : OutRecord} {s : State}

theorem noticeAccepted_done_resolved (outcome : OutcomeCode) :
    ResolvedIn r (.completed outcome sender) s (noticeAccepted (.done outcome) sender r s) :=
  resolveRecord_resolved r (.completed outcome sender) s

theorem noticeAccepted_ret_withdrawn (draining : s.control.state = .draining) :
    ResolvedIn r .withdrawn s (noticeAccepted .ret sender r s) := by
  rw [noticeAccepted, if_pos draining]
  exact resolveRecord_resolved r .withdrawn s

theorem noticeAccepted_ret_online (online : s.control.state = .online) :
    noticeAccepted .ret sender r s = returnAccepted r s := by
  simp [noticeAccepted, online]

theorem returnAccepted_below (below : r.attempts + 1 < (classOf s r.cls).attemptLimit) :
    returnAccepted r s = putRecord { r with attempts := r.attempts + 1, state := .waiting } s :=
  if_pos below

theorem noticeAccepted_ret_givenBack (online : s.control.state = .online)
    (below : r.attempts + 1 < (classOf s r.cls).attemptLimit) :
    (noticeAccepted .ret sender r s).offer.records = s.offer.records.map fun x =>
      if x.tag = r.tag then { r with attempts := r.attempts + 1, state := .waiting } else x := by
  rw [noticeAccepted_ret_online online, returnAccepted_below below]
  simp

theorem returnAccepted_atLimit (limit : (classOf s r.cls).attemptLimit ≤ r.attempts + 1) :
    returnAccepted r s = resolveRecord { r with attempts := r.attempts + 1 } (.refused (r.attempts + 1)) s :=
  if_neg (Nat.not_lt.2 limit)

theorem noticeAccepted_ret_refused (online : s.control.state = .online)
    (limit : (classOf s r.cls).attemptLimit ≤ r.attempts + 1) :
    ResolvedIn { r with attempts := r.attempts + 1 } (.refused (r.attempts + 1)) s
      (noticeAccepted .ret sender r s) := by
  rw [noticeAccepted_ret_online online, returnAccepted_atLimit limit]
  exact resolveRecord_resolved { r with attempts := r.attempts + 1 } (.refused (r.attempts + 1)) s

end

/-! ### The answer slots before it, and the drain test after it (R33, R56) -/

/-- The answer slots are no part of what a resolution looks at. -/
theorem ResolvedIn.of_setAnswer {r : OutRecord} {res : Resolution} {a : Answer} {s t : State}
    (h : ResolvedIn r res (setAnswer a s) t) : ResolvedIn r res s t := h

@[simp] theorem testDrain_bus (s : State) : (testDrain s).bus = s.bus := by rw [testDrain_eq]

@[simp] theorem testDrain_port (s : State) : (testDrain s).port = s.port := by rw [testDrain_eq]

@[simp] theorem testDrain_offer (s : State) : (testDrain s).offer = s.offer := by rw [testDrain_eq]

theorem ResolvedIn.testDrain {r : OutRecord} {res : Resolution} {s t : State} (h : ResolvedIn r res s t) :
    ResolvedIn r res s (testDrain t) := by
  rw [testDrain_eq]; exact h

/-! ### The answer to a notice (R33, R101, R105) -/

section
variable {n : NoticeFields} {s : State}

theorem noticeReceived_toAnother (another : n.target ≠ s.control.number) : effect (.noticeReceived n) s = s := by
  simp [effect, fromStation, another]

theorem noticeReceived_toStation (receiving : s.receiving = true) (known : n.sender ≠ 15)
    (own : n.target = s.control.number) : effect (.noticeReceived n) s = noticeAnswered n s := by
  have handed : (s.receiving && n.sender != 15) = true := by simpa [receiving] using known
  rw [effect, fromStation, if_pos handed, if_pos own]

theorem noticeAnswered_silent (silent : s.control.state.answers = false) :
    noticeAnswered n s = setAnswer .none s := by
  simp [noticeAnswered, silent]

theorem noticeAnswered_stale (answers : s.control.state.answers = true)
    (stale : matchNotice n.tag n.generation n.sender s = none) :
    noticeAnswered n s = setAnswer (.notice true true) s := by
  simp [noticeAnswered, answers, stale]

theorem noticeAnswered_accepted {r : OutRecord} (answers : s.control.state.answers = true)
    (accepted : matchNotice n.tag n.generation n.sender s = some r) :
    noticeAnswered n s =
      testDrain (noticeAccepted (wordNotice n) n.sender r (setAnswer (.notice true false) s)) := by
  simp [noticeAnswered, answers, accepted]

theorem wordNotice_done (word : n.word = .done) : wordNotice n = .done n.outcome := by
  simp [wordNotice, word]

theorem wordNotice_ret (word : n.word = .ret) : wordNotice n = .ret := by
  simp [wordNotice, word]

end

/-- Settles O38: to another station, in a silent state, stale, or accepted with one case for each word and state. -/
theorem noticeAnsweredByMatch : Obligations.NoticeAnsweredByMatch := by
  intro n s run
  rw [exec_of_run run]
  refine ⟨fun another => ?_, fun receiving known own => ?_⟩
  · rw [noticeReceived_toAnother another]
  rw [noticeReceived_toStation receiving known own]
  refine ⟨fun silent => ?_, fun answering => ⟨fun stale => ?_, ?_⟩⟩
  · rw [noticeAnswered_silent (not_answers_of_silent silent)]
    rfl
  · rw [noticeAnswered_stale (answers_iff.2 answering) (matchNotice_none.2 stale)]
    rfl
  · rintro r mem tag generation ⟨timer, claimed⟩ ⟨-, nodup, -⟩
    have accepted : matchNotice n.tag n.generation n.sender s = some r := by
      rw [← tag, ← generation]
      exact matchNotice_of_mem nodup mem claimed
    rw [noticeAnswered_accepted (answers_iff.2 answering) accepted]
    have only := onlyTickets_noticeAccepted (wordNotice n) n.sender r (setAnswer (.notice true false) s)
    have bus := (testDrain_bus _).trans only.bus
    refine ⟨_, rfl, bus, ?_, (testDrain_port _).trans only.port, fun word => ?_, fun word draining => ?_,
      fun word online below => ?_, fun word online limit => ?_⟩
    · rw [bus]
      exact ticketsThenDrain_testDrain only
    · rw [wordNotice_done word]
      exact .testDrain (.of_setAnswer (noticeAccepted_done_resolved n.outcome))
    · rw [wordNotice_ret word]
      exact .testDrain (.of_setAnswer (noticeAccepted_ret_withdrawn draining))
    · rw [wordNotice_ret word, testDrain_offer]
      exact noticeAccepted_ret_givenBack online below
    · rw [wordNotice_ret word]
      exact .testDrain (.of_setAnswer (noticeAccepted_ret_refused online limit))

end Sys2Proof.Machine
end

section
/-! PROOFS. The affinity table (R134, R135): what using a block does to it, TOUCH and FORGET, and the penalty that an empty table
brings (R125, R137, R138). -/

namespace Sys2Proof.Machine

/-! ### Using a block (R135) -/

section
variable {block : Nat}

theorem useBlock_fresh {table : List Nat} (fresh : block ∉ table) :
    useBlock block table = (block :: table).take 16 := by
  have kept : (table.filter fun b => b != block) = table :=
    List.filter_eq_self.2 fun b mem => bne_iff_ne.2 fun same => fresh (same ▸ mem)
  rw [useBlock, kept]
  rfl

theorem useBlock_fresh_room {table : List Nat} (fresh : block ∉ table) (room : table.length < 16) :
    useBlock block table = block :: table := by
  rw [useBlock_fresh fresh, List.take_of_length_le (by simpa using room)]

theorem useBlock_fresh_full {table : List Nat} (fresh : block ∉ table) (full : table.length = 16) :
    useBlock block table = block :: table.dropLast := by
  rw [useBlock_fresh fresh, List.take_succ_cons, List.dropLast_eq_take, full]

/-- A block's old place does not count: it is used as if it had not stood in the table. -/
theorem useBlock_middle (before after : List Nat) :
    useBlock block (before ++ block :: after) = useBlock block (before ++ after) := by
  simp [useBlock]

theorem useBlock_moves {before after : List Nat} (nodup : (before ++ block :: after).Nodup)
    (fits : (before ++ block :: after).length ≤ 16) :
    useBlock block (before ++ block :: after) = block :: (before ++ after) := by
  have fresh : block ∉ before ++ after := (List.nodup_cons.1 (List.nodup_middle.1 nodup)).1
  have room : (before ++ after).length < 16 := by
    simp only [List.length_append, List.length_cons] at fits ⊢
    omega
  rw [useBlock_middle, useBlock_fresh_room fresh room]

end

/-! ### TOUCH, FORGET and the penalty (R125, R137, R138) -/

section
variable {s : State}

theorem touchCommand_started (started : s.control.state.started = true) (addr : Address) :
    touchCommand addr s =
      { answer .ok s with claim.affinity := useBlock (blockOf s.control.config addr) s.claim.affinity } := by
  rw [touchCommand, if_pos started]
  rfl

theorem touchCommand_stopped (stopped : s.control.state.started = false) (addr : Address) :
    touchCommand addr s = answer .state s := by
  simp [touchCommand, stopped]

theorem forgetCommand_started (started : s.control.state.started = true) :
    forgetCommand s = { answer .ok s with claim.affinity := [] } := by
  rw [forgetCommand, if_pos started]
  rfl

theorem forgetCommand_stopped (stopped : s.control.state.started = false) : forgetCommand s = answer .state s := by
  simp [forgetCommand, stopped]

/-- The penalty is W for an address whose class uses affinity and whose block is not in the table. -/
theorem penalty_eq (o : OfferFields) (s : State) :
    penalty o s =
      if (classOf s o.cls).affinityUse = true ∧
          ∃ a, o.addr = some a ∧ a.toNat / 2 ^ s.control.config.station.blockExponent ∉ s.claim.affinity
        then s.control.config.station.affinityWeight else 0 := by
  unfold penalty
  cases o.addr with
  | none => simp
  | some a => simp [blockOf]

theorem penalty_of_empty {o : OfferFields} {a : Address} (empty : s.claim.affinity = []) (present : o.addr = some a)
    (uses : (classOf s o.cls).affinityUse = true) : penalty o s = s.control.config.station.affinityWeight := by
  rw [penalty_eq, if_pos ⟨uses, a, present, by simp [empty]⟩]

end

/-- Settles O23: refused before the start of the station; then FORGET, and TOUCH of a block in the table, of a new one with room,
and of a new one in a full table. -/
theorem touchAndForgetSetTable : Obligations.TouchAndForgetSetTable := by
  intro addr s run
  rw [exec_of_run run, exec_of_run run, effect, effect]
  refine ⟨fun refused => ?_, fun configured numbered => ?_⟩
  · have stopped := not_started_iff.2 refused
    exact ⟨congrArg _ (touchCommand_stopped stopped addr), congrArg _ (forgetCommand_stopped stopped)⟩
  have started := started_iff.2 ⟨configured, numbered⟩
  rw [touchCommand_started started, forgetCommand_started started]
  refine ⟨⟨rfl, fun o a t empty present uses => penalty_of_empty empty present uses⟩, ?_, fun fresh => ⟨?_, ?_⟩⟩
  · rintro before after ⟨-, -, -, fits, nodup⟩ table
    rw [table] at fits nodup ⊢
    rw [blockOf, useBlock_moves nodup fits]
  · intro room
    rw [blockOf, useBlock_fresh_room fresh room]
  · intro full
    rw [blockOf, useBlock_fresh_full fresh full]

end Sys2Proof.Machine
end

section
/-! PROOFS. The decision on an OFFER (R120 to R126): which copies of its ticket the station holds, eligibility from them, and the
bid. -/

namespace Sys2Proof.Machine

/-! ### Copies of a ticket (R143) -/

theorem isCopy_iff {originator : StationNumber} {tag : Tag} {r : InRecord} :
    isCopy originator tag r = true ↔ r.originator = originator ∧ r.tag = tag := by
  simp [isCopy]

section
variable {originator : StationNumber} {tag : Tag} {s : State}

theorem inService_iff : inService originator tag s = true ↔
    ∃ i e, s.work.slots.get i = some e ∧ e.originator = originator ∧ e.tag = tag := by
  rw [inService, List.any_eq_true]
  constructor
  · rintro ⟨x, mem, holds⟩
    obtain ⟨i, place⟩ := vector_mem_toList.1 mem
    cases x with
    | none => cases holds
    | some e => exact ⟨i, e, place, by simpa using holds⟩
  · rintro ⟨i, e, place, holds⟩
    exact ⟨some e, vector_mem_toList.2 ⟨i, place⟩, by simpa using holds⟩

theorem not_inService_iff : inService originator tag s = false ↔
    ∀ i e, s.work.slots.get i = some e → ¬ (e.originator = originator ∧ e.tag = tag) := by
  simp only [← Bool.not_eq_true, inService_iff, not_exists, not_and]

theorem inboundCopy_none :
    inboundCopy originator tag s = none ↔ ∀ r ∈ s.work.inbound, ¬ (r.originator = originator ∧ r.tag = tag) := by
  simp only [inboundCopy, List.find?_eq_none, isCopy_iff]

theorem inboundCopy_some {r : InRecord} (h : inboundCopy originator tag s = some r) :
    r ∈ s.work.inbound ∧ r.originator = originator ∧ r.tag = tag :=
  ⟨List.mem_of_find?_eq_some h, isCopy_iff.1 (List.find?_some h)⟩

/-- With no ticket held twice, no other record can be the one found. -/
theorem inboundCopy_of_mem (nodup : s.copies.Nodup) {r : InRecord} (mem : r ∈ s.work.inbound)
    (own : r.originator = originator) (same : r.tag = tag) : inboundCopy originator tag s = some r := by
  cases found : inboundCopy originator tag s with
  | none => exact absurd ⟨own, same⟩ (inboundCopy_none.1 found r mem)
  | some x =>
    obtain ⟨memX, ownX, sameX⟩ := inboundCopy_some found
    rw [inbound_inj (copies_inbound_nodup nodup) memX mem (ownX.trans own.symm) (sameX.trans same.symm)]

end

/-! ### Eligibility (R121 to R123) -/

/-- The conditions of R121: ONLINE, in the destination set, the class accepted, and no in-service entry with the ticket. -/
def OpenTo (o : OfferFields) (s : State) : Prop :=
  s.control.state = .online ∧ setHas o.dest s.control.number = true ∧ (classOf s o.cls).accept = true ∧
    ∀ i e, s.work.slots.get i = some e → ¬ (e.originator = o.sender ∧ e.tag = o.tag)

section
variable {o : OfferFields} {s : State}

theorem openTo_iff : OpenTo o s ↔ (!mayClaim o s || inService o.sender o.tag s) = false := by
  simp only [OpenTo, ← not_inService_iff, mayClaim, Bool.or_eq_false_iff, Bool.not_eq_false', Bool.and_eq_true,
    decide_eq_true_eq, and_assoc]

theorem eligible_closed (closed : ¬ OpenTo o s) : eligible o s = none := by
  rw [openTo_iff, Bool.not_eq_false] at closed
  rw [eligible, if_pos closed]

theorem eligible_held (able : OpenTo o s) {r : InRecord} (held : inboundCopy o.sender o.tag s = some r) :
    eligible o s = if r.state = .waiting ∧ r.generation.toNat < o.generation.toNat then some true else none := by
  simp only [eligible, openTo_iff.1 able, held, BitVec.lt_def]
  rfl

theorem eligible_new (able : OpenTo o s) (new : inboundCopy o.sender o.tag s = none) :
    eligible o s = if s.work.inbound.length < 24 then some false else none := by
  simp only [eligible, openTo_iff.1 able, new]
  rfl

/-! ### The bid (R124 to R126) -/

theorem vector_toList_eq_map {α : Type} {n : Nat} (v : Vector α n) : v.toList = (List.finRange n).map v.get := by
  refine List.ext_getElem (by simp) fun i _ _ => ?_
  simp [Vector.get]

theorem load_eq (s : State) : load s =
    s.work.inbound.length + ((List.finRange 8).filter fun i => (s.work.slots.get i).isSome).length := by
  rw [load, vector_toList_eq_map, List.filter_map, List.length_map]
  rfl

theorem load_le (s : State) : load s ≤ s.work.inbound.length + 8 := by
  rw [load]
  exact Nat.add_le_add_left ((List.length_filter_le _ _).trans_eq (Vector.length_toList)) _

theorem penalty_le (o : OfferFields) (s : State) : penalty o s ≤ s.control.config.station.affinityWeight := by
  rw [penalty_eq]
  split
  · exact le_rfl
  · exact Nat.zero_le _

/-- With a place in the queue and a W in its range, the largest bid is 23 + 8 + 1 + 15, and the field holds it. -/
theorem bid_le (room : s.work.inbound.length < 24) (weight : s.control.config.station.affinityWeight ≤ 15) :
    load s + 1 + penalty o s ≤ 47 := by
  have := load_le s
  have := penalty_le o s
  omega

theorem bidFor_new_toNat (room : s.work.inbound.length < 24) (weight : s.control.config.station.affinityWeight ≤ 15) :
    (bidFor o false s).toNat = load s + 1 + penalty o s :=
  (BitVec.toNat_ofNat _ _).trans (Nat.mod_eq_of_lt ((bid_le room weight).trans_lt (by decide)))

/-! ### The offer in hand (R120) -/

theorem offerValidated_received (receiving : s.receiving = true) (known : o.sender ≠ 15) :
    effect (.offerValidated o) s = { s with claim.offerInHand := some (decideOffer o s) } := by
  have handed : (s.receiving && o.sender != 15) = true := by simpa [receiving] using known
  rw [effect, fromStation, if_pos handed]

theorem decideOffer_silent (ineligible : eligible o s = none) :
    decideOffer o s = { offer := o, bid := none, upgrade := false, inClaim := false } := by
  rw [decideOffer, ineligible]

theorem decideOffer_bids {upgrade : Bool} (bids : eligible o s = some upgrade) :
    decideOffer o s = { offer := o, bid := some (bidFor o upgrade s), upgrade := upgrade, inClaim := true } := by
  rw [decideOffer, bids]

end

/-- Settles O34: not open to the station; with a copy in the queue; and with none, the queue full or not. -/
theorem offerDecidedByRules : Obligations.OfferDecidedByRules := by
  intro o s run receiving known able silent
  rw [exec_of_run run, offerValidated_received receiving known]
  have silentOf (ineligible : eligible o s = none) :
      .next { s with claim.offerInHand := some (decideOffer o s) } = silent := by
    rw [decideOffer_silent ineligible]
  refine ⟨fun closed => silentOf (eligible_closed closed), ?_, fun isOpen unheld => ?_⟩
  · rintro isOpen ⟨-, -, -, -, nodup, -⟩ r mem own same
    have elig := eligible_held isOpen (inboundCopy_of_mem nodup mem own same)
    refine ⟨fun waiting older => ?_, fun bars => silentOf ?_⟩
    · rw [if_pos ⟨waiting, older⟩] at elig
      rw [decideOffer_bids elig]
      rfl
    · rw [elig, if_neg]
      rintro ⟨waiting, older⟩
      exact bars.elim (fun taken => taken waiting) (Nat.not_le_of_lt older)
  · have elig := eligible_new isOpen (inboundCopy_none.2 unheld)
    refine ⟨fun full => silentOf ?_, fun room weight => ?_⟩
    · rw [elig, if_neg (Nat.not_lt_of_le full)]
    · rw [if_pos room] at elig
      have value := bidFor_new_toNat (o := o) room weight
      refine ⟨bidFor o false s, ?_, ?_, ?_, ?_⟩
      · omega
      · rw [value]
        exact bid_le room weight
      · rw [value, load_eq, penalty_eq]
      · rw [decideOffer_bids elig]

end Sys2Proof.Machine
end

section
/-! PROOFS. The winner's commit (R129 to R133): what the claim as read leaves to commit, where a new ticket is put in the queue,
and how a held copy is raised. -/

namespace Sys2Proof.Machine

/-! ### The claim as read by the winner (R32, R53, R128) -/

/-- The roster has learnt the originator and the claimant, and the offer in hand has ended. -/
def claimLearned (originator claimant : StationNumber) (s : State) : State :=
  { s with
    control.roster := setAdd (setAdd s.control.roster originator) claimant
    bus.answer := .none
    claim.offerInHand := none }

section
variable {bid : BitVec 6} {h : OfferInHand} {s : State}

theorem claimAsRead_won (receiving : s.receiving = true) (hand : s.claim.offerInHand = some h)
    (inClaim : h.inClaim = true) (bids : h.bid = some bid) :
    effect (.claimAsRead bid s.control.number true) s =
      commitClaim h (claimLearned h.offer.sender s.control.number s) := by
  have wins : winsClaim h bid s.control.number s = true := by simp [winsClaim, inClaim, bids]
  simp only [effect, whenReceiving, receiving, claimRead, hand, wins, if_true]
  rfl

theorem commitClaim_new (online : s.control.state = .online) (new : h.upgrade = false) :
    commitClaim h s = commitNew h.offer s := by
  simp [commitClaim, online, new]

theorem commitClaim_upgrade (online : s.control.state = .online) (upgrade : h.upgrade = true) :
    commitClaim h s = commitUpgrade h.offer s := by
  simp [commitClaim, online, upgrade]

end

/-! ### A new ticket (R129, R133) -/

/-- The record of a new ticket, with the fields of its OFFER and its claim sequence number. -/
def newCopy (o : OfferFields) (claimSequence : Nat) : InRecord :=
  { originator := o.sender, tag := o.tag, generation := o.generation, cls := o.cls, level := o.level, dest := o.dest,
    addr := o.addr, claimSequence := claimSequence, state := .waiting }

theorem commitNew_eq (o : OfferFields) (s : State) : commitNew o s = { s with
    work.inbound := insertInbound (newCopy o s.claim.claimCounter) s.work.inbound
    claim.claimCounter := s.claim.claimCounter + 1 } := rfl

/-- The newest record stands behind those of its level, so the level alone divides the queue. -/
theorem insertInbound_newest {r : InRecord} {q : List InRecord} (sorted : q.Pairwise fun a b => queueBefore a b = true)
    (newest : ∀ x ∈ q, x.claimSequence < r.claimSequence) :
    ∃ before after, q = before ++ after ∧ insertInbound r q = before ++ r :: after ∧
      (∀ x ∈ before, x.level.toNat ≤ r.level.toNat) ∧ ∀ x ∈ after, r.level.toNat < x.level.toNat := by
  obtain ⟨before, after, split, inserted, -, -⟩ := insertInbound_split r q
  have ordered := insertInbound_sorted sorted fun x mem => (newest x mem).ne
  rw [inserted] at ordered
  obtain ⟨-, behind, ahead⟩ := List.pairwise_append.1 ordered
  refine ⟨before, after, split, inserted, fun x mem => ?_, fun x mem => ?_⟩
  · have := queueBefore_iff.1 (ahead x mem r List.mem_cons_self)
    omega
  · have := queueBefore_iff.1 (List.rel_of_pairwise_cons behind mem)
    have := newest x (split ▸ List.mem_append_right _ mem)
    omega

/-- Settles O36: the claim learnt, the record is put where the level alone divides the queue. -/
theorem winnerCommitsNewTicket : Obligations.WinnerCommitsNewTicket := by
  rintro bid h s run receiving online hand inClaim bids new ⟨-, sorted, -, numbered, -, -⟩
  obtain ⟨before, after, split, inserted, urgent, rest⟩ :=
    insertInbound_newest (r := newCopy h.offer s.claim.claimCounter) sorted numbered
  refine ⟨before, after, split, urgent, rest, ?_⟩
  rw [exec_of_run run, claimAsRead_won receiving hand inClaim bids,
    commitClaim_new (s := claimLearned _ _ s) online new, commitNew_eq]
  simp only [claimLearned, inserted]
  rfl

/-! ### An upgrade (R130, R131) -/

/-- The held copy with the fields of the OFFER; its claim sequence number and state stay. -/
def raisedCopy (o : OfferFields) (r : InRecord) : InRecord :=
  { r with generation := o.generation, cls := o.cls, level := o.level, dest := o.dest, addr := o.addr }

section
variable {o : OfferFields} {s : State}

theorem commitUpgrade_gone
    (gone : ∀ r ∈ s.work.inbound, r.originator = o.sender → r.tag = o.tag → r.state ≠ .waiting) :
    commitUpgrade o s = s := by
  unfold commitUpgrade
  cases found : inboundCopy o.sender o.tag s with
  | none => rfl
  | some r =>
    obtain ⟨mem, own, same⟩ := inboundCopy_some found
    exact if_neg (gone r mem own same)

theorem commitUpgrade_held {r : InRecord} (held : inboundCopy o.sender o.tag s = some r) (waiting : r.state = .waiting) :
    commitUpgrade o s = { s with
      work.inbound := insertInbound (raisedCopy o r) (s.work.inbound.filter fun x => !isCopy o.sender o.tag x) } := by
  simp only [commitUpgrade, held]
  exact if_pos waiting

end

/-- With no ticket held twice, taking a ticket's copy out of the queue leaves the records around it. -/
theorem filter_not_isCopy {originator : StationNumber} {tag : Tag} {first last : List InRecord} {r : InRecord}
    (nodup : ((first ++ r :: last).map fun r => (r.originator, r.tag)).Nodup) (own : r.originator = originator)
    (same : r.tag = tag) : ((first ++ r :: last).filter fun x => !isCopy originator tag x) = first ++ last := by
  subst own same
  rw [List.map_append, List.map_cons, List.nodup_middle, ← List.map_append] at nodup
  have others : ∀ x ∈ first ++ last, (!isCopy r.originator r.tag x) = true := by
    intro x mem
    rw [Bool.not_eq_true', ← Bool.not_eq_true, isCopy_iff]
    rintro ⟨own, same⟩
    exact (List.nodup_cons.1 nodup).1 (List.mem_map.2 ⟨x, mem, Prod.ext own same⟩)
  have taken : isCopy r.originator r.tag r = true := isCopy_iff.2 ⟨rfl, rfl⟩
  rw [List.filter_append, List.filter_cons_of_neg (by simp [taken]), ← List.filter_append, List.filter_eq_self.2 others]

/-- A record taken out and put back, whatever its level has become, leaves the queue in order: it keeps a claim sequence number
of its own. -/
theorem insertInbound_putBack {first last : List InRecord} {r raised : InRecord}
    (sorted : (first ++ r :: last).Pairwise fun a b => queueBefore a b = true)
    (numbers : ((first ++ r :: last).map (·.claimSequence)).Nodup) (kept : raised.claimSequence = r.claimSequence) :
    (insertInbound raised (first ++ last)).Pairwise fun a b => queueBefore a b = true := by
  refine insertInbound_sorted (sorted.sublist ((List.sublist_cons_self r last).append_left first)) fun x mem same => ?_
  rw [List.map_append, List.map_cons, List.nodup_middle, ← List.map_append] at numbers
  exact (List.nodup_cons.1 numbers).1 (List.mem_map.2 ⟨x, mem, same.trans kept⟩)

theorem queueBefore_iff_level {a b : InRecord} : queueBefore a b = true ↔
    a.level.toNat < b.level.toNat ∨ (a.level = b.level ∧ a.claimSequence < b.claimSequence) := by
  rw [queueBefore_iff, BitVec.toNat_inj]

/-- Settles O37: no copy is WAITING any more, or the one that is, is taken out, raised and put back. -/
theorem winnerUpgradesCopy : Obligations.WinnerUpgradesCopy := by
  rintro bid h s run receiving online hand inClaim bids upgrade ⟨-, sorted, numbers, -, nodup, -⟩ ended
  rw [exec_of_run run, claimAsRead_won receiving hand inClaim bids,
    commitClaim_upgrade (s := claimLearned _ _ s) online upgrade]
  refine ⟨fun gone => congrArg _ (commitUpgrade_gone gone), fun first r last queue own same waiting => ?_⟩
  have held : inboundCopy h.offer.sender h.offer.tag (claimLearned h.offer.sender s.control.number s) = some r :=
    inboundCopy_of_mem (s := claimLearned _ _ s) nodup (by simp [claimLearned, queue]) own same
  have removed := filter_not_isCopy (queue ▸ copies_inbound_nodup nodup) own same
  have ordered := insertInbound_putBack (r := r) (raised := raisedCopy h.offer r) (queue ▸ sorted) (queue ▸ numbers) rfl
  obtain ⟨before, after, split, inserted, -, -⟩ := insertInbound_split (raisedCopy h.offer r) (first ++ last)
  rw [inserted] at ordered
  refine ⟨before, after, split, ?_, ordered.imp queueBefore_iff_level.1⟩
  rw [commitUpgrade_held held waiting]
  simp only [claimLearned, queue, removed, inserted]
  rfl

end Sys2Proof.Machine
end

section
/-! PROOFS. The attention line (R171, R172): when each of its three conditions holds, and from them when ATN# is low. -/

namespace Sys2Proof.Machine

/-! ### The three conditions, each with its enable item -/

section
variable {s : State}

theorem waitingInbound_eq (q : List InRecord) :
    waitingInbound q = (q.filter fun r => decide (r.state = .waiting)).length := by
  simp only [waitingInbound, beq_eq_decide]

theorem attentionInbound_iff : attentionInbound s = true ↔
    s.control.config.station.enableInbound = true ∧
      s.control.config.station.attentionThreshold ≤
        (s.work.inbound.filter fun r => decide (r.state = .waiting)).length := by
  rw [attentionInbound, Bool.and_eq_true, decide_eq_true_iff, waitingInbound_eq]

theorem attentionReport_iff : attentionReport s = true ↔
    s.control.config.station.enableReport = true ∧ s.reports.queue ≠ [] := by
  rw [attentionReport, Bool.and_eq_true, Bool.not_eq_true', List.isEmpty_eq_false_iff]

theorem attentionStateChange_iff : attentionStateChange s = true ↔
    s.control.config.station.enableStateChange = true ∧ s.control.stateChanged = true := by
  rw [attentionStateChange, Bool.and_eq_true]

/-! ### The line -/

theorem atnLow_iff : atnLow s = true ↔
    s.held = false ∧ (attentionInbound s = true ∨ attentionReport s = true ∨ attentionStateChange s = true) := by
  rw [atnLow, Bool.and_eq_true, Bool.not_eq_true', Bool.or_eq_true, Bool.or_eq_true, or_assoc]

end

/-- Settles O51: the line is low while the station is not held and one of the three conditions holds, each of which is its
enable item and what it watches. -/
theorem attentionLineFollowsConditions : Obligations.AttentionLineFollowsConditions := by
  intro s
  rw [atnLow_iff, attentionInbound_iff, attentionReport_iff, attentionStateChange_iff]

end Sys2Proof.Machine
end

section
/-! PROOFS. The three commands that read (R184, R188, R189, R194): what each read-out holds byte by byte, and from it the
answers to QUERY, STATUS and ROSTER. -/

namespace Sys2Proof.Machine

/-! ### The read-out of a record (R184) -/

section
variable {s : State}

theorem queryCommand_unknown {tag : Tag} (free : ∀ r ∈ s.offer.records, r.tag ≠ tag) :
    queryCommand tag s = answer .unknown s := by
  rw [queryCommand, findRecord_none.2 free]

theorem queryCommand_held (nodup : (s.offer.records.map (·.tag)).Nodup) {r : OutRecord} (mem : r ∈ s.offer.records) :
    queryCommand r.tag s = respond .ok (recordReadOut r) s := by
  rw [queryCommand, findRecord_of_mem nodup mem]

end

theorem claimantByte_eq (st : RecordState) : orAbsent (st.claimant.map fun c => numByte c.toNat) =
    match st with
    | .outstanding c _ => BitVec.ofNat 8 c.toNat
    | .waiting => 255
    | .backoff _ => 255
    | .offering _ => 255
    | .resolved _ _ => 255 := by
  cases st <;> rfl

/-- Settles O15: no record holds the tag, or the one that holds it is found, since no tag stands twice. -/
theorem queryReadsRecord : Obligations.QueryReadsRecord := by
  intro tag s run
  rw [exec_of_run run, effect]
  refine ⟨fun free => congrArg _ (queryCommand_unknown free), ?_⟩
  rintro r mem rfl ⟨-, nodup, -⟩
  rw [queryCommand_held nodup mem, recordReadOut, claimantByte_eq]
  rfl

/-! ### The figures of STATUS (R188) -/

theorem causeCode_eq (st : StationState) :
    st.causeCode = if st = .faultNumber then 1 else if st = .faultClash then 2 else 0 := by
  cases st <;> rfl

/-- The in-service entries, counted over the slot numbers. -/
theorem serviceCount_eq (s : State) :
    serviceCount s = ((List.finRange 8).filter fun i => (s.work.slots.get i).isSome).length := by
  rw [serviceCount, vector_toList_eq_map, List.filter_map, List.length_map]
  rfl

/-! ### The two bytes of ROSTER (R189, R194) -/

theorem toBytes_two (v : BitVec 16) : toBytes 2 v.toNat = [v.extractLsb' 8 8, v.extractLsb' 0 8] := by
  simp only [toBytes, BitVec.extractLsb', Nat.shiftRight_eq_div_pow]
  rfl

theorem high_append_low (v : BitVec 16) : v.extractLsb' 8 8 ++ v.extractLsb' 0 8 = v :=
  (BitVec.extractLsb'_append_extractLsb'_eq_extractLsb' (len₁ := 8) (len₂ := 8) rfl).trans
    BitVec.extractLsb'_eq_self

/-- The set fits in two bytes, with bit 15 reading 0. -/
theorem rosterCommand_eq (s : State) : rosterCommand s =
    respond .ok [(s.control.roster.setWidth 16).extractLsb' 8 8, (s.control.roster.setWidth 16).extractLsb' 0 8] s := by
  rw [rosterCommand, ← toBytes_two, BitVec.toNat_setWidth_of_le (by decide)]

/-- Settles O21: the figures of STATUS one by one, and the roster's two bytes put together again. -/
theorem statusAndRosterRead : Obligations.StatusAndRosterRead := by
  intro s run
  rw [exec_of_run run, exec_of_run run, effect, effect]
  constructor
  · rw [statusCommand, statusBytes, causeCode_eq, serviceCount_eq]
    rfl
  · exact ⟨_, _, congrArg _ (rosterCommand_eq s), high_append_low _⟩

end Sys2Proof.Machine
end

section
/-! PROOFS. The check of a frame (R193): one step of the register, which keeps apart what differed before it; the check over a
string of bits; and the sixteen check bits, as sent and as compared. -/

namespace Sys2Proof.Machine

/-! ### The number that bits read as -/

theorem bitsNum_concat (bits : List Bool) (b : Bool) : bitsNum (bits ++ [b]) = 2 * bitsNum bits + b.toNat :=
  List.foldl_concat ..

theorem bitsNum_lt (bits : List Bool) : bitsNum bits < 2 ^ bits.length := by
  induction bits using List.reverseRecOn with
  | nil => exact Nat.one_pos
  | append_singleton bits b ih =>
    rw [bitsNum_concat, List.length_append, List.length_singleton, Nat.pow_succ]
    have := b.toNat_lt
    omega

theorem fieldAt_lt (bits : List Bool) (first last : Nat) : fieldAt bits first last < 2 ^ (last + 1 - first) :=
  (bitsNum_lt _).trans_le (Nat.pow_le_pow_right Nat.two_pos (List.length_take_le _ _))

/-! ### One step of the register -/

section
variable (r : BitVec 16) (b : Bool)

theorem shiftLeft_one_eq_ofNat : r <<< 1 = BitVec.ofNat 16 (2 * r.toNat) := by
  apply BitVec.eq_of_toNat_eq
  rw [BitVec.toNat_shiftLeft, Nat.shiftLeft_eq, Nat.mul_comm, BitVec.toNat_ofNat]

/-- R193's step in words: bit 15 against the incoming bit, the register doubled, and 4129 where they differ. -/
theorem crcStep_eq_ofNat : crcStep r b =
    if r.getLsbD 15 ≠ b then BitVec.ofNat 16 (2 * r.toNat) ^^^ 4129 else BitVec.ofNat 16 (2 * r.toNat) := by
  simp only [crcStep, BitVec.msb_eq_getLsbD_last, Bool.xor_iff_ne, shiftLeft_one_eq_ofNat]
  rfl

/-- The shift brings in a 0 and the polynomial is odd, so the feedback bit stands at the register's least significant end. -/
theorem crcStep_lsb : (crcStep r b).getLsbD 0 = (r.msb ^^ b) := by
  rw [crcStep]
  split
  case isTrue feedback => rw [feedback, BitVec.getLsbD_xor]; simp
  case isFalse feedback => rw [Bool.eq_false_of_not_eq_true feedback]; simp

end

section
variable {r r' : BitVec 16} {b b' : Bool}

theorem crcStep_bit_injective (same : crcStep r b = crcStep r b') : b = b' := by
  have feedback := congrArg (BitVec.getLsbD · 0) same
  simpa only [crcStep_lsb, Bool.xor_right_inj] using feedback

/-- The shift drops the most significant bit only. -/
theorem eq_of_msb_of_shiftLeft (msb : r.msb = r'.msb) (shifted : r <<< 1 = r' <<< 1) : r = r' := by
  apply BitVec.eq_of_toNat_eq
  have doubled := congrArg BitVec.toNat shifted
  simp only [shiftLeft_one_eq_ofNat, BitVec.toNat_ofNat] at doubled
  simp only [BitVec.msb_eq_decide, decide_eq_decide] at msb
  omega

/-- The feedback bit read off the result gives back the most significant bit, and with it what was shifted. -/
theorem crcStep_register_injective (same : crcStep r b = crcStep r' b) : r = r' := by
  have msb : r.msb = r'.msb := by
    have feedback := congrArg (BitVec.getLsbD · 0) same
    simpa only [crcStep_lsb, Bool.xor_left_inj] using feedback
  refine eq_of_msb_of_shiftLeft msb ?_
  rw [crcStep, crcStep, msb] at same
  split at same
  · exact (BitVec.xor_left_inj _).1 same
  · exact same

end

/-! ### The register over a string of bits -/

theorem crc_concat (bits : List Bool) (b : Bool) : crc (bits ++ [b]) = crcStep (crc bits) b :=
  List.foldl_concat ..

/-- Registers that differ stay different over the same further bits. -/
theorem crcFold_injective (bits : List Bool) {r r' : BitVec 16} (same : bits.foldl crcStep r = bits.foldl crcStep r') :
    r = r' := by
  induction bits generalizing r r' with
  | nil => exact same
  | cons b bits ih => exact crcStep_register_injective (ih same)

theorem crc_bit_injective {front back : List Bool} {b b' : Bool}
    (same : crc (front ++ b :: back) = crc (front ++ b' :: back)) : b = b' := by
  rw [crc, crc, List.foldl_append, List.foldl_append] at same
  exact crcStep_bit_injective (crcFold_injective back same)

/-! ### The check bits sent and the check bits compared -/

theorem numBits_sixteen (v : BitVec 16) : numBits v = (List.range 16).map fun i => v.getLsbD (15 - i) := by
  refine List.map_congr_left fun i mem => ?_
  rw [BitVec.getMsbD, decide_eq_true (List.mem_range.1 mem), Bool.true_and]

theorem layoutOf_check_length (kind : FrameKind) (hasAddr : Bool) :
    (layoutOf kind hasAddr).checkLast + 1 - (layoutOf kind hasAddr).checkFirst = 16 := by
  cases kind <;> cases hasAddr <;> rfl

/-- Sixteen bits read as a number below 65536, so the comparison is one of numbers. -/
theorem checkGood_iff {bits : List Bool} {lay : Layout} (sixteen : lay.checkLast + 1 - lay.checkFirst = 16) :
    checkGood bits lay = true ↔
      (crc (bitsAt bits 2 (lay.checkFirst - 1))).toNat = fieldAt bits lay.checkFirst lay.checkLast := by
  have small : fieldAt bits lay.checkFirst lay.checkLast < 2 ^ 16 := sixteen ▸ fieldAt_lt ..
  rw [checkGood, beq_iff_eq, ← BitVec.toNat_inj, BitVec.toNat_ofNat, Nat.mod_eq_of_lt small]

/-- Settles O53: the step on one more bit, the check bits as the register's bits, the receiver's comparison as one of numbers,
and the one differing bit, which no later step undoes. -/
theorem checkComputation : Obligations.CheckComputation := by
  refine ⟨rfl, fun bits b => ?_, fun f => ?_, fun bits kind hasAddr => ?_, fun front back b same => ?_⟩
  · rw [crc_concat, crcStep_eq_ofNat]
  · rw [Frame.sentBits, numBits_sixteen]
  · have sixteen := layoutOf_check_length kind hasAddr
    have first : (layoutOf kind hasAddr).checkFirst - 1 + 1 - 2 = (layoutOf kind hasAddr).checkFirst - 2 := by omega
    rw [checkGood_iff sixteen, fieldAt, bitsAt, bitsAt, sixteen, first]
    rfl
  · exact Bool.not_ne_self b (crc_bit_injective same).symm

end Sys2Proof.Machine
end

section
/-! PROOFS. The ticket operations as chains of moves: every operation of Machine/Ops.lean on records, sources, copies and
reports is a chain of the few moves listed here, so that a law which each move keeps is kept by every operation. -/

namespace Sys2Proof.Machine

/-! ### What becomes of one record -/

/-- Generation and attempts used keep within the limits of the record's class (R12, R108). -/
def OutRecord.Within (r : OutRecord) (c : ClassEntry) : Prop :=
  r.generation.toNat ≤ c.reofferLimit ∧ r.attempts ≤ c.attemptLimit ∧ (r.state.inPlay = true → r.attempts < c.attemptLimit)

/-- `r` is the record `x` of the list of `s` with another generation, attempt count or state. -/
structure Revises (s : State) (r x : OutRecord) : Prop where
  mem : x ∈ s.offer.records
  tag : r.tag = x.tag
  source : r.source = x.source
  cls : r.cls = x.cls

theorem Revises.refl {s : State} {x : OutRecord} (h : x ∈ s.offer.records) : Revises s x x := ⟨h, rfl, rfl, rfl⟩

/-- One indivisible change of the tickets. `x` is the record in the list, `r` what it has become. -/
inductive TicketStep (s : State) : State → Prop
  | put {x r : OutRecord} (rev : Revises s r x)
      (limits : 1 ≤ (classOf s r.cls).attemptLimit → x.Within (classOf s r.cls) → r.Within (classOf s r.cls)) :
      TicketStep s (putRecord r s)
  | fix {x r : OutRecord} (res : Resolution) (rev : Revises s r x)
      (limits : x.Within (classOf s r.cls) →
        r.generation.toNat ≤ (classOf s r.cls).reofferLimit ∧ r.attempts ≤ (classOf s r.cls).attemptLimit) :
      TicketStep s (fixResolution r res s)
  | make (l : Line) (idle : ∀ tag latched, (entryAt s l).state ≠ .live tag latched)
      (creates : s.control.state.creates = true) (room : s.offer.records.length < 32) :
      TicketStep s (makeSourceRecord l s)
  | create (f : TicketFields) (soft : f.source = .soft) (creates : s.control.state.creates = true)
      (room : s.offer.records.length < 32) : TicketStep s (createRecord f s)
  | leave {r : OutRecord} (res : Resolution) (mem : r ∈ s.offer.records) (room : s.reports.queue.length < 16) :
      TicketStep s (leaveList r (pushReport (recordReport r res) s))
  | reportCopy (n : HeldNotice) (how : CopyEnd) (room : s.reports.queue.length < 16) :
      TicketStep s (pushReport (copyReport n how) s)
  | count : TicketStep s (countResolution s)
  | freeCopy (ref : CopyRef) : TicketStep s (freeCopy ref s)
  | writeNotice (n : HeldNotice) : TicketStep s (writeNotice n s)

/-- A chain of them. -/
abbrev TicketSteps : State → State → Prop := Relation.ReflTransGen TicketStep

/-- One change of the tickets after which the sources have been looked at where a place may have become free (R70, R71). -/
inductive TicketMove (s : State) : State → Prop
  | put {x r : OutRecord} (rev : Revises s r x)
      (limits : 1 ≤ (classOf s r.cls).attemptLimit → x.Within (classOf s r.cls) → r.Within (classOf s r.cls)) :
      TicketMove s (putRecord r s)
  | resolve {x r : OutRecord} (res : Resolution) (rev : Revises s r x)
      (limits : x.Within (classOf s r.cls) →
        r.generation.toNat ≤ (classOf s r.cls).reofferLimit ∧ r.attempts ≤ (classOf s r.cls).attemptLimit) :
      TicketMove s (resolveRecord r res s)
  | serve (source : Source) : TicketMove s (placeFreed source s)
  | make (l : Line) (idle : ∀ tag latched, (entryAt s l).state ≠ .live tag latched)
      (creates : s.control.state.creates = true) (room : s.offer.records.length < 32) :
      TicketMove s (serveSources (makeSourceRecord l s))
  | submit (f : TicketFields) (soft : f.source = .soft) (creates : s.control.state.creates = true)
      (room : s.offer.records.length < 32) : TicketMove s (createAndServe f s)
  | place {r : OutRecord} (res : Resolution) (mem : r ∈ s.offer.records) (room : s.reports.queue.length < 16) :
      TicketMove s (placeItem (.record r res) s)
  | placeCopy (n : HeldNotice) (how : CopyEnd) (room : s.reports.queue.length < 16) :
      TicketMove s (placeItem (.copy n how) s)
  | endCopy (n : HeldNotice) (how : CopyEnd) : TicketMove s (endCopy n how s)
  | freeCopy (ref : CopyRef) : TicketMove s (freeCopy ref s)
  | writeNotice (n : HeldNotice) : TicketMove s (writeNotice n s)

/-- A chain of them. -/
abbrev TicketMoves : State → State → Prop := Relation.ReflTransGen TicketMove

/-! ### Serving the sources, step by step -/

theorem reportRoom_iff {s : State} : reportRoom s = true ↔ s.reports.queue.length < 16 := decide_eq_true_iff

theorem waitingSource_creates {s : State} {l : Line} (h : waitingSource s l = true) : s.control.state.creates = true := by
  simp only [waitingSource, Bool.and_eq_true] at h
  exact h.1.1

theorem waitingSource_notLive {s : State} {l : Line} (h : waitingSource s l = true) (tag : Tag) (latched : Bool) :
    (entryAt s l).state ≠ .live tag latched := by
  intro live
  simp [waitingSource, live] at h

theorem makeSourceRecord_steps {s : State} {l : Line} (waits : waitingSource s l = true) (room : recordRoom s = true) :
    TicketSteps s (makeSourceRecord l s) :=
  .single (.make l (waitingSource_notLive waits) (waitingSource_creates waits) (recordRoom_iff.1 room))

theorem serveSource_steps (l : Line) (s : State) : TicketSteps s (serveSource l s) := by
  unfold serveSource
  split
  case isTrue h =>
    obtain ⟨waits, room⟩ := Bool.and_eq_true_iff.1 h
    exact makeSourceRecord_steps waits room
  case isFalse => exact .refl

theorem serveWaiting_steps (n : Nat) (s : State) : TicketSteps s (serveWaiting n s) := by
  induction n generalizing s with
  | zero => exact .refl
  | succ n ih =>
    unfold serveWaiting
    split
    case h_1 => exact .refl
    case h_2 l h =>
      split
      case isTrue room => exact (makeSourceRecord_steps (List.find?_some h) room).trans (ih _)
      case isFalse => exact .refl

theorem serveSources_steps (s : State) : TicketSteps s (serveSources s) := serveWaiting_steps 8 s

theorem placeFreed_steps (source : Source) (s : State) : TicketSteps s (placeFreed source s) := by
  cases source with
  | soft => exact serveSources_steps s
  | line l => exact (serveSource_steps l s).trans (serveSources_steps _)

/-- Beside the work unit, a step touches the offer, source and report units only. -/
theorem TicketStep.onlyTickets {s t : State} (h : TicketStep s t) : OnlyTickets { s with work := t.work } t := by
  cases h with
  | put => exact (onlyTickets_putRecord _ s).withWork _
  | fix res => exact (onlyTickets_fixResolution _ res s).withWork _
  | make l => exact (onlyTickets_makeSourceRecord l s).withWork _
  | create f => exact (onlyTickets_createRecord f s).withWork _
  | leave => exact ((onlyTickets_pushReport _ s).trans (onlyTickets_leaveList _ _)).withWork _
  | reportCopy => exact (onlyTickets_pushReport _ s).withWork _
  | count => exact (onlyTickets_countResolution s).withWork _
  | freeCopy ref => exact onlyTickets_freeCopy ref s
  | writeNotice n => exact onlyTickets_writeNotice n s

/-- Every move is a chain of steps. -/
theorem TicketMove.steps {s t : State} (h : TicketMove s t) : TicketSteps s t := by
  cases h with
  | put rev limits => exact .single (.put rev limits)
  | resolve res rev limits =>
    unfold resolveRecord
    split
    · exact .head (.fix res rev limits) (placeFreed_steps _ _)
    · exact .single (.fix res rev limits)
  | serve source => exact placeFreed_steps source s
  | make l idle creates room => exact .head (.make l idle creates room) (serveSources_steps _)
  | submit f soft creates room => exact .head (.create f soft creates room) (serveSources_steps _)
  | place res mem room => exact .head (.leave res mem room) (placeFreed_steps _ _)
  | placeCopy n how room => exact .head (.reportCopy n how room) (.single (.freeCopy _))
  | endCopy n how =>
    unfold Machine.endCopy
    split
    case isTrue room =>
      exact .head .count (.head (.reportCopy n how (reportRoom_iff.1 room)) (.single (.freeCopy _)))
    case isFalse => exact .head .count (.single (.writeNotice _))
  | freeCopy ref => exact .single (.freeCopy ref)
  | writeNotice n => exact .single (.writeNotice n)

theorem TicketMoves.steps {s t : State} (h : TicketMoves s t) : TicketSteps s t := by
  induction h with
  | refl => exact .refl
  | tail _ move ih => exact ih.trans move.steps

/-- A law that each step keeps is kept by a chain of moves. -/
theorem TicketMoves.keeps {P : State → Prop} {s t : State} (step : ∀ {s t}, TicketStep s t → P s → P t)
    (h : TicketMoves s t) (start : P s) : P t := by
  have steps := h.steps
  clear h
  induction steps with
  | refl => exact start
  | tail _ last ih => exact step last ih

/-- A law that each move keeps is kept by a chain of moves. -/
theorem TicketMoves.keepsMoves {P : State → Prop} {s t : State} (move : ∀ {s t}, TicketMove s t → P s → P t)
    (h : TicketMoves s t) (start : P s) : P t := by
  induction h with
  | refl => exact start
  | tail _ last ih => exact move last ih

/-- Beside the work unit, a move touches the offer, source and report units only. -/
theorem TicketMove.onlyTickets {s t : State} (h : TicketMove s t) : OnlyTickets { s with work := t.work } t := by
  have beside {t : State} (only : OnlyTickets s t) : OnlyTickets { s with work := t.work } t := only.withWork t.work
  cases h with
  | put => exact beside (onlyTickets_putRecord _ s)
  | resolve => exact beside (onlyTickets_resolveRecord _ _ s)
  | serve => exact beside (onlyTickets_placeFreed _ s)
  | make => exact beside ((onlyTickets_makeSourceRecord _ s).trans (onlyTickets_serveSources _))
  | submit => exact beside (onlyTickets_createAndServe _ s)
  | place =>
    exact beside ((onlyTickets_pushReport _ s).trans ((onlyTickets_leaveList _ _).trans (onlyTickets_placeFreed _ _)))
  | placeCopy n how =>
    exact OnlyTickets.thenWork (t := pushReport (copyReport n how) s) (onlyTickets_pushReport _ s) (onlyTickets_freeCopy _ _)
  | endCopy n how => exact onlyTickets_endCopy n how s
  | freeCopy ref => exact onlyTickets_freeCopy ref s
  | writeNotice n => exact onlyTickets_writeNotice n s

theorem TicketMoves.onlyTickets {s t : State} (h : TicketMoves s t) : OnlyTickets { s with work := t.work } t := by
  induction h with
  | refl => exact .refl _
  | tail _ last ih => exact ih.thenWork last.onlyTickets

/-! ### The operations on records -/

/-- A record re-offered or given back starts its attempts anew, or counts one more below the limit. -/
theorem OutRecord.Within.of_eq {x r : OutRecord} {c : ClassEntry} (generation : r.generation = x.generation)
    (attempts : r.attempts = x.attempts) (play : r.state.inPlay = true → x.state.inPlay = true) (h : x.Within c) :
    r.Within c := by
  obtain ⟨reoffers, used, below⟩ := h
  exact ⟨generation ▸ reoffers, attempts ▸ used, fun p => attempts ▸ below (play p)⟩

theorem resolveRecord_moves {x : OutRecord} (res : Resolution) {s : State} (mem : x ∈ s.offer.records) :
    TicketMoves s (resolveRecord x res s) :=
  .single (.resolve res (.refl mem) fun ⟨reoffers, used, _⟩ => ⟨reoffers, used⟩)

/-- A state change of a record in play. -/
theorem putRecord_moves {x : OutRecord} {s : State} (mem : x ∈ s.offer.records) (play : x.state.inPlay = true)
    (state : RecordState) : TicketMoves s (putRecord { x with state := state } s) :=
  .single (.put ⟨mem, rfl, rfl, rfl⟩ fun _ => .of_eq rfl rfl fun _ => play)

theorem lapse_moves {x : OutRecord} {s : State} (mem : x ∈ s.offer.records) : TicketMoves s (lapse x s) := by
  unfold lapse
  split
  case isTrue below =>
    refine .single (.put ⟨mem, rfl, rfl, rfl⟩ fun some _ => ⟨?_, Nat.zero_le _, fun _ => some⟩)
    change (x.generation + 1).toNat ≤ _
    rw [BitVec.toNat_add]
    exact le_trans (Nat.mod_le _ _) below
  case isFalse => exact resolveRecord_moves _ mem

theorem forRecords_moves {act : OutRecord → State → State}
    (moves : ∀ {r s}, r ∈ s.offer.records → TicketMoves s (act r s)) (tags : List Tag) (s : State) :
    TicketMoves s (forRecords tags act s) := by
  unfold forRecords
  induction tags generalizing s with
  | nil => exact .refl
  | cons tag tags ih =>
    rw [List.foldl_cons]
    refine Relation.ReflTransGen.trans ?_ (ih _)
    split
    case h_1 r found => exact moves (findRecord_mem found).1
    case h_2 => exact .refl

theorem orphan_moves (peer : StationNumber) (s : State) : TicketMoves s (orphan peer s) := forRecords_moves lapse_moves _ s

theorem withdrawUnoffered_moves (s : State) : TicketMoves s (withdrawUnoffered s) :=
  forRecords_moves (resolveRecord_moves .withdrawn) _ s

theorem withdrawRemaining_moves (s : State) : TicketMoves s (withdrawRemaining s) :=
  forRecords_moves (resolveRecord_moves .withdrawn) _ s

/-- One more attempt resolves the record at its limit. -/
theorem resolveRecord_charged_moves {x : OutRecord} (res : Resolution) {s : State} (mem : x ∈ s.offer.records)
    (play : x.state.inPlay = true) : TicketMoves s (resolveRecord { x with attempts := x.attempts + 1 } res s) :=
  .single (.resolve res ⟨mem, rfl, rfl, rfl⟩ fun ⟨reoffers, _, below⟩ => ⟨reoffers, below play⟩)

/-- One more attempt below the limit. -/
theorem putRecord_charged_moves {x : OutRecord} {s : State} (mem : x ∈ s.offer.records)
    (below : x.attempts + 1 < (classOf s x.cls).attemptLimit) (state : RecordState) :
    TicketMoves s (putRecord { x with attempts := x.attempts + 1, state := state } s) :=
  .single (.put ⟨mem, rfl, rfl, rfl⟩ fun _ ⟨reoffers, _, _⟩ => ⟨reoffers, le_of_lt below, fun _ => below⟩)

theorem returnAccepted_moves {x : OutRecord} {s : State} (mem : x ∈ s.offer.records) (play : x.state.inPlay = true) :
    TicketMoves s (returnAccepted x s) := by
  unfold returnAccepted
  simp only
  split
  case isTrue below => exact putRecord_charged_moves mem below _
  case isFalse => exact resolveRecord_charged_moves _ mem play

theorem noticeAccepted_moves (kind : NoticeKind) (sender : StationNumber) {x : OutRecord} {s : State}
    (mem : x ∈ s.offer.records) (play : x.state.inPlay = true) : TicketMoves s (noticeAccepted kind sender x s) := by
  unfold noticeAccepted
  split
  · exact resolveRecord_moves _ mem
  · split
    · exact resolveRecord_moves _ mem
    · exact returnAccepted_moves mem play

/-- The record a notice matches is in the list and in play. -/
theorem matchNotice_inPlay {tag : Tag} {generation : Generation} {sender : StationNumber} {s : State} {r : OutRecord}
    (h : matchNotice tag generation sender s = some r) : r ∈ s.offer.records ∧ r.state.inPlay = true := by
  refine ⟨(matchNotice_some h).1, ?_⟩
  have matched := List.find?_some h
  simp only [Bool.and_eq_true, isOutstandingWith_iff] at matched
  obtain ⟨_, _, outstanding⟩ := matched
  rw [outstanding]
  rfl

theorem attemptCounted_moves {x : OutRecord} {s : State} (mem : x ∈ s.offer.records) (play : x.state.inPlay = true) :
    TicketMoves s (attemptCounted x s) := by
  unfold attemptCounted
  simp only
  split
  case isTrue below => split <;> exact putRecord_charged_moves mem below _
  case isFalse => exact resolveRecord_charged_moves _ mem play

theorem offerDecided_moves {x : OutRecord} (cancel : Bool) (fate : OfferFate) {s : State} (mem : x ∈ s.offer.records)
    (play : x.state.inPlay = true) : TicketMoves s (offerDecided x cancel fate s) := by
  have put (state : RecordState) := putRecord_moves mem play state
  unfold offerDecided
  split
  · exact resolveRecord_moves _ mem
  · split
    · split
      · exact resolveRecord_moves _ mem
      · split
        · exact put _
        · exact resolveRecord_moves _ mem
    · split
      · split
        · exact put _
        · exact attemptCounted_moves mem play
      all_goals exact put _

theorem offerEnded_moves (tag : Tag) (fate : OfferFate) (s : State) : TicketMoves s (offerEnded tag fate s) := by
  unfold offerEnded
  split
  case h_1 => exact .refl
  case h_2 r found =>
    split
    case h_1 cancel offering => exact offerDecided_moves cancel fate (findRecord_mem found).1 (by rw [offering]; rfl)
    all_goals exact .refl

/-! ### The operations on copies -/

theorem handSelfNotice_moves (n : HeldNotice) (s : State) : TicketMoves s (handSelfNotice n s) := by
  unfold handSelfNotice
  split
  case h_1 r matched =>
    obtain ⟨mem, play⟩ := matchNotice_inPlay matched
    exact (noticeAccepted_moves n.kind s.control.number mem play).tail (.freeCopy n.ref)
  case h_2 => exact .single (.endCopy n .stale)

theorem handIfSelf_moves (ref : CopyRef) (s : State) : TicketMoves s (handIfSelf ref s) := by
  unfold handIfSelf
  split
  · split
    · exact handSelfNotice_moves _ s
    · exact .refl
  · exact .refl

theorem handAll_moves (refs : List CopyRef) (s : State) :
    TicketMoves s (refs.foldl (fun t ref => handIfSelf ref t) s) := by
  induction refs generalizing s with
  | nil => exact .refl
  | cons ref refs ih => exact (handIfSelf_moves ref s).trans (ih _)

theorem handSelfNotices_moves (s : State) : TicketMoves s (handSelfNotices s) := handAll_moves _ s

theorem handSelfReturns_moves (turned : List InRecord) (s : State) : TicketMoves s (handSelfReturns turned s) := by
  unfold handSelfReturns
  rw [← List.foldl_map (f := fun r : InRecord => CopyRef.inbound r.originator r.tag) (g := fun t ref => handIfSelf ref t)]
  exact handAll_moves _ s

theorem noticeEnded_moves (n : HeldNotice) (fate : NoticeFate) (s : State) : TicketMoves s (noticeEnded n fate s) := by
  unfold noticeEnded
  split
  case h_4 =>
    unfold notDelivered
    simp only
    split
    · exact .single (.writeNotice _)
    · exact .single (.endCopy _ _)
  case h_5 => exact .single (.freeCopy _)
  case h_6 => exact .single (.endCopy _ _)
  all_goals exact .refl

/-! ### Items that wait for report room -/

theorem mem_of_leastBy {α : Type} {key : α → Nat} {l : List α} {a : α} (h : leastBy key l = some a) : a ∈ l := by
  induction l generalizing a with
  | nil => cases h
  | cons b l ih =>
    unfold leastBy at h
    split at h
    case h_1 c least =>
      split at h <;> cases h
      · exact List.mem_cons_of_mem _ (ih least)
      · exact List.mem_cons_self
    case h_2 => cases h; exact List.mem_cons_self

theorem mem_waitingItems_record {s : State} {k : Nat} {r : OutRecord} {res : Resolution} :
    (k, WaitingItem.record r res) ∈ waitingItems s ↔ r ∈ s.offer.records ∧ r.state = .resolved res k := by
  unfold waitingItems
  simp only [List.mem_append, List.mem_filterMap, Option.map_eq_some_iff]
  constructor
  · rintro (⟨x, mem, eq⟩ | ⟨n, mem, x, _, eq⟩)
    · split at eq
      case h_1 res' k' resolved => cases eq; exact ⟨mem, resolved⟩
      all_goals cases eq
    · cases eq
  · rintro ⟨mem, resolved⟩
    exact .inl ⟨r, mem, by rw [resolved]⟩

theorem placeWaiting_moves (s : State) : TicketMoves s (placeWaiting s) := by
  unfold placeWaiting
  split
  case isFalse => exact .refl
  case isTrue room =>
    split
    case h_2 => exact .refl
    case h_1 item least =>
      obtain ⟨k, item⟩ := item
      cases item with
      | record r res => exact .single (.place res (mem_waitingItems_record.1 (mem_of_leastBy least)).1 (reportRoom_iff.1 room))
      | copy n how => exact .single (.placeCopy n how (reportRoom_iff.1 room))

end Sys2Proof.Machine
end

section
/-! PROOFS. One step of the block as a chain of changes: each command, and what the block does on an empty queue, is a chain of the
changes listed here, so that a law of the collections which each change keeps is kept by every step. -/

namespace Sys2Proof.Machine

/-! ### The changes -/

/-- What is the outside's to change: the queue of commands, the pin activity and the count of free values drawn. -/
def State.outside (s : State) : List Instr × List PinInput × Nat := (s.pending, s.inputs, s.freeDrawn)

/-- The outside's part taken from another state. -/
def State.withOutside (s u : State) : State := { s with pending := u.pending, inputs := u.inputs, freeDrawn := u.freeDrawn }

/-- From `s` to `t` the collections, the entries and the affinity table are as they were, and so are the station number, the
configuration and its lock; an offer in hand has kept its offer and bid, or ended. -/
structure Elsewhere (s t : State) : Prop where
  records : t.offer.records = s.offer.records := by rfl
  queue : t.reports.queue = s.reports.queue := by rfl
  sources : t.sources = s.sources := by rfl
  inbound : t.work.inbound = s.work.inbound := by rfl
  slots : t.work.slots = s.work.slots := by rfl
  affinity : t.claim.affinity = s.claim.affinity := by rfl
  claimCounter : t.claim.claimCounter = s.claim.claimCounter := by rfl
  number : t.control.number = s.control.number := by rfl
  config : t.control.config = s.control.config := by rfl
  locked : t.control.locked = s.control.locked := by rfl
  hand : ∀ h, t.claim.offerInHand = some h → ∃ h', s.claim.offerInHand = some h' ∧ h.offer = h'.offer ∧ h.bid = h'.bid ∧
    h.upgrade = h'.upgrade := by exact fun h held => ⟨h, held, rfl, rfl, rfl⟩
  started : t.control.state.started = s.control.state.started := by rfl
  outside : t.outside = s.outside := by rfl

/-- What may happen to a source entry outside the making and the end of its record (R65, R68, R73, R74, R76). -/
structure EntryChange (s : State) (l : Line) (e : SourceEntry) : Prop where
  state : e.state = (entryAt s l).state ∨
    (e.state = .quiet ∧ (entryAt s l).state = .latched) ∨
    (∃ tag latched, e.state = .live tag false ∧ (entryAt s l).state = .live tag latched) ∨
    (e.state = .latched ∧ (entryAt s l).state = .quiet ∧ isLevel s l = false ∧ s.control.state.creates = true) ∨
    ∃ tag latched, e.state = .live tag true ∧ (entryAt s l).state = .live tag latched ∧ isLevel s l = false
  masked : e.masked = true → (e.state = (entryAt s l).state ∧ (entryAt s l).masked = true) ∨
    (e.state ≠ .latched ∧ ∀ tag, e.state ≠ .live tag true)

/-- The collections are empty (R51, R61, R75). -/
structure Emptied (s t : State) : Prop where
  records : t.offer.records = [] := by rfl
  queue : t.reports.queue = [] ∨ t.reports.queue = s.reports.queue
  affinity : t.claim.affinity = [] ∨ t.claim.affinity = s.claim.affinity
  inbound : t.work.inbound = [] := by rfl
  slots : ∀ i, t.work.slots.get i = none
  quiet : ∀ l, (entryAt t l).state = .quiet
  hand : t.claim.offerInHand = none := by rfl
  number : t.control.number = s.control.number := by rfl
  config : t.control.config = s.control.config := by rfl
  locked : t.control.locked = s.control.locked := by rfl
  started : t.control.state.started = s.control.state.started
  outside : t.outside = s.outside := by rfl

/-- One change. -/
inductive Change (s : State) : State → Prop
  | ticket {t : State} (h : TicketStep s t) : Change s t
  | elsewhere {t : State} (h : Elsewhere s t) : Change s t
  | tick : Change s (tick s)
  | entries {sources : Vector SourceEntry 8} (h : ∀ l, EntryChange s l (sources.get l)) :
      Change s { s with sources := sources }
  | configure {c : Configuration} (unlocked : s.control.locked = false) : Change s { s with control.config := c }
  | lock (unstarted : s.control.state.started = false) (valid : s.control.config.valid = true) :
      Change s (enterJoining false (applyStartMasked { s with control.locked := true }))
  | empty {t : State} (h : Emptied s t) : Change s t
  | dropReport {r : Report} {rest : List Report} (oldest : s.reports.queue = r :: rest) :
      Change s { s with reports.queue := rest }
  | use (block : Nat) : Change s { s with claim.affinity := useBlock block s.claim.affinity }
  | forget : Change s { s with claim.affinity := [] }
  | take {i : Fin 8} {r : InRecord} (mem : r ∈ s.work.inbound) (free : s.work.slots.get i = none) :
      Change s (setSlot i (some (takenEntry r)) (freeCopy (.inbound r.originator r.tag) s))
  | dispose {i : Fin 8} {e : ServiceEntry} (held : s.work.slots.get i = some e) (state : ServiceState) :
      Change s (setSlot i (some { e with state := state }) s)
  | turn : Change s (returnWaiting s)
  | decide (o : OfferFields) : Change s { s with claim.offerInHand := some (decideOffer o s) }
  | claim (bid : BitVec 6) (claimant : StationNumber) (confirm : Bool) : Change s (claimRead bid claimant confirm s)

/-- A chain of them. -/
abbrev Changes : State → State → Prop := Relation.ReflTransGen Change

/-- A law that each change keeps is kept by a chain. -/
theorem Changes.keeps {P : State → Prop} {s t : State} (change : ∀ {s t}, Change s t → P s → P t) (h : Changes s t)
    (start : P s) : P t := by
  induction h with
  | refl => exact start
  | tail _ last ih => exact change last ih

theorem Change.changes {s t : State} (h : Change s t) : Changes s t := .single h

theorem Changes.trans {s t u : State} (h : Changes s t) (k : Changes t u) : Changes s u := Relation.ReflTransGen.trans h k

theorem Elsewhere.changes {s t : State} (h : Elsewhere s t) : Changes s t := .single (.elsewhere h)

theorem TicketMoves.changes {s t : State} (h : TicketMoves s t) : Changes s t := by
  have steps := h.steps
  clear h
  induction steps with
  | refl => exact .refl
  | tail _ last ih => exact ih.tail (.ticket last)

/-! ### Changes elsewhere -/

theorem elsewhere_respond (code : ResponseCode) (bytes : List Byte) (s : State) : Elsewhere s (respond code bytes s) := {}

theorem elsewhere_answer (code : ResponseCode) (s : State) : Elsewhere s (answer code s) := {}

theorem elsewhere_setAnswer (a : Answer) (s : State) : Elsewhere s (setAnswer a s) := {}

theorem elsewhere_addToRoster (n : StationNumber) (s : State) : Elsewhere s (addToRoster n s) := {}

theorem elsewhere_endOwnFrame (errors : Nat) (s : State) : Elsewhere s (endOwnFrame errors s) := {}

theorem elsewhere_startFrame (c : Candidate) (f : Frame) (s : State) : Elsewhere s (startFrame c f s) := {}

theorem elsewhere_dropOffer (s : State) : Elsewhere s { s with claim.offerInHand := none } :=
  { hand := fun _ held => nomatch held }

theorem elsewhere_loseSynchronisation (s : State) : Elsewhere s (loseSynchronisation s) :=
  { hand := fun _ held => nomatch held }

theorem elsewhere_testDrain (s : State) : Elsewhere s (testDrain s) := by
  unfold testDrain
  split
  · exact {}
  · exact {}

theorem elsewhere_dropHand (fate : OfferFate) (s : State) : Elsewhere s (dropHand fate s) := by
  cases fate with
  | lost => exact {}
  | broken => exact elsewhere_dropOffer s
  | void => exact elsewhere_dropOffer s
  | clean => exact {}

theorem elsewhere_learnClaimant (fate : OfferFate) (s : State) : Elsewhere s (learnClaimant fate s) := by
  unfold learnClaimant
  split
  · exact elsewhere_addToRoster _ s
  · exact {}

theorem Changes.testDrain {s t : State} (h : Changes s t) : Changes s (testDrain t) := h.tail (.elsewhere (elsewhere_testDrain t))

theorem Changes.respond {s t : State} (h : Changes s t) (code : ResponseCode) (bytes : List Byte) :
    Changes s (respond code bytes t) := h.tail (.elsewhere (elsewhere_respond code bytes t))

theorem Changes.answer {s t : State} (h : Changes s t) (code : ResponseCode) : Changes s (answer code t) :=
  h.tail (.elsewhere (elsewhere_answer code t))

theorem answer_changes (code : ResponseCode) (s : State) : Changes s (answer code s) := (elsewhere_answer code s).changes

/-- One entry written. -/
theorem setEntry_changes {l : Line} {e : SourceEntry} {s : State} (h : EntryChange s l e) : Changes s (setEntry l e s) := by
  refine .single (.entries fun k => ?_)
  rw [vector_get_set]
  split
  case isTrue own => subst own; exact h
  case isFalse => exact ⟨.inl rfl, fun masked => .inl ⟨rfl, masked⟩⟩

/-- An entry whose state and mask stay. -/
theorem EntryChange.of_eq {s : State} {l : Line} {e : SourceEntry} (state : e.state = (entryAt s l).state)
    (masked : e.masked = true → (entryAt s l).masked = true) : EntryChange s l e :=
  ⟨.inl state, fun m => .inl ⟨state, masked m⟩⟩

/-! ### Commands of configuration and station control -/

theorem writeConfig_changes (group field : Byte) (value : BitVec 40) (s : State) :
    Changes s (writeConfig group field value s) := by
  unfold writeConfig
  split
  · exact answer_changes _ s
  · split
    case isTrue => exact answer_changes _ s
    case isFalse unlocked =>
      split
      · exact answer_changes _ s
      · split
        · exact answer_changes _ s
        · rename_i c _
          have written : Change s { s with control.config := c } := .configure (by simpa using unlocked)
          exact written.changes.answer _

theorem readConfig_changes (group field : Byte) (s : State) : Changes s (readConfig group field s) := by
  unfold readConfig
  split
  · exact answer_changes _ s
  · exact (elsewhere_respond _ _ s).changes

theorem elsewhere_enterJoining (resumed : Bool) {s : State} (started : s.control.state.started = true) :
    Elsewhere s (enterJoining resumed s) where
  hand _ held := nomatch held
  started := started.symm

theorem joinCommand_changes (s : State) : Changes s (joinCommand s) := by
  have again (resumed : Bool) (started : s.control.state.started = true) :
      Changes s (answer .ok (enterJoining resumed s)) := (elsewhere_enterJoining resumed started).changes.answer _
  unfold joinCommand
  split
  case h_1 state =>
    unfold firstJoin
    split
    case isTrue valid => exact Changes.answer (.single (.lock (by rw [state]; rfl) valid)) _
    case isFalse => exact answer_changes _ s
  case h_2 state => exact again _ (by rw [state]; rfl)
  case h_3 state => exact again _ (by rw [state]; rfl)
  case h_4 state => exact again _ (by rw [state]; rfl)
  all_goals exact answer_changes _ s

theorem emptied_restartTaken {s : State} (started : s.control.state.started = true) : Emptied s (restartTaken s) where
  queue := .inl rfl
  affinity := .inl rfl
  slots i := vector_get_replicate 8 i none
  quiet l := congrArg SourceEntry.state (vector_get_ofFn _ l)
  started := started.symm

theorem restartCommand_changes (s : State) : Changes s (restartCommand s) := by
  unfold restartCommand
  split
  case isTrue started => exact Changes.answer (.single (.empty (emptied_restartTaken started))) _
  case isFalse => exact answer_changes _ s

theorem emptied_enterFaultClash {s : State} (started : s.control.state.started = true) : Emptied s (enterFaultClash s) where
  queue := .inr rfl
  affinity := .inr rfl
  slots i := vector_get_replicate 8 i none
  quiet l := congrArg SourceEntry.state (vector_get_map s.sources l _)
  started := started.symm

theorem discardLatch_change (s : State) (l : Line) : EntryChange s l (discardLatch (entryAt s l)) := by
  unfold discardLatch
  split
  case h_1 latched => exact ⟨.inr (.inl ⟨rfl, latched⟩), fun _ => .inr ⟨nofun, nofun⟩⟩
  case h_2 tag latched live => exact ⟨.inr (.inr (.inl ⟨tag, latched, rfl, live⟩)), fun _ => .inr ⟨nofun, by simp⟩⟩
  case h_3 => exact .of_eq rfl id

theorem drainTaken_changes {s : State} (online : s.control.state = .online) : Changes s (drainTaken s) := by
  have start : Elsewhere s (startDrain s) := { started := by rw [online]; rfl }
  have withdrawn := (withdrawUnoffered_moves (startDrain s)).changes
  have returned : Changes s (returnWaiting (withdrawUnoffered (startDrain s))) :=
    (start.changes.trans withdrawn).tail .turn
  have handed := returned.trans (handSelfReturns_moves (s.work.inbound.filter fun r => r.state == .waiting) _).changes
  refine Changes.testDrain (handed.tail (.entries fun l => ?_))
  rw [vector_get_map]
  exact discardLatch_change _ l

theorem drainCommand_changes (s : State) : Changes s (drainCommand s) := by
  unfold drainCommand
  split
  case isTrue online => exact (drainTaken_changes online).answer _
  case isFalse => exact answer_changes _ s

/-! ### Commands on tickets, copies and tables -/

theorem serveSources_moves (s : State) : TicketMoves s (serveSources s) := .single (.serve .soft)

theorem submitCommand_changes (cls level flag : Byte) (set : BitVec 16) (addr : Address) (s : State) :
    Changes s (submitCommand cls level flag set addr s) := by
  unfold submitCommand
  split
  · exact answer_changes _ s
  · split
    · exact answer_changes _ s
    · split
      · exact answer_changes _ s
      · rename_i creates _ room
        have made : TicketMoves s (createAndServe (submitFields cls level flag set addr) s) :=
          .single (.submit _ rfl (by simpa using creates) (recordRoom_iff.1 (by simpa using room)))
        exact made.changes.respond _ _

theorem cancelCommand_changes (tag : Tag) (s : State) : Changes s (cancelCommand tag s) := by
  unfold cancelCommand
  split
  · exact answer_changes _ s
  · split
    · exact answer_changes _ s
    · rename_i r found
      have mem := (findRecord_mem found).1
      have resolved := (resolveRecord_moves .cancelled mem).changes.testDrain.answer .ok
      unfold cancelRecord
      split
      case h_1 => exact resolved
      case h_2 => exact resolved
      case h_3 c offering => exact (putRecord_moves mem (by rw [offering]; rfl) _).changes.answer _
      case h_4 => exact resolved
      case h_5 => exact answer_changes _ s

theorem queryCommand_changes (tag : Tag) (s : State) : Changes s (queryCommand tag s) := by
  unfold queryCommand
  split
  · exact answer_changes _ s
  · exact (elsewhere_respond _ _ s).changes

theorem useAddress_changes (addr : Option Address) (s : State) : Changes s (useAddress addr s) := by
  unfold useAddress
  split
  · exact .single (.use _)
  · exact .refl

theorem takeCommand_changes (s : State) : Changes s (takeCommand s) := by
  unfold takeCommand
  split
  · exact answer_changes _ s
  · split
    · exact answer_changes _ s
    · split
      · exact answer_changes _ s
      · rename_i i empty _ r first
        have free : s.work.slots.get i = none := by simpa using List.find?_some empty
        have taken := Change.take (List.mem_of_find?_eq_some first) free
        exact (taken.changes.trans (useAddress_changes r.addr _)).respond _ _

theorem makeNotice_changes {i : Fin 8} {e : ServiceEntry} {s : State} (held : s.work.slots.get i = some e)
    (kind : NoticeKind) : Changes s (makeNotice i e kind s) := by
  have counted : Elsewhere s { s with work.noticeCounter := s.work.noticeCounter + 1 } := {}
  have made : Changes s (setSlot i (some { e with state := .notifying kind s.work.noticeCounter 0 none })
      { s with work.noticeCounter := s.work.noticeCounter + 1 }) :=
    counted.changes.trans (Change.dispose (s := { s with work.noticeCounter := s.work.noticeCounter + 1 }) held _).changes
  unfold makeNotice
  simp only
  split
  · exact made.trans (handIfSelf_moves _ _).changes
  · exact made

theorem disposeSlot_changes (i : Fin 8) (kind : NoticeKind) (s : State) : Changes s (disposeSlot i kind s) := by
  unfold disposeSlot
  split
  · exact answer_changes _ s
  · rename_i e held
    split
    · exact (makeNotice_changes held kind).testDrain.answer _
    · exact answer_changes _ s

theorem finishCommand_changes (slot outcome : Byte) (s : State) : Changes s (finishCommand slot outcome s) := by
  unfold finishCommand
  split
  · exact answer_changes _ s
  · split
    · exact answer_changes _ s
    · split
      · exact answer_changes _ s
      · exact disposeSlot_changes _ _ s

theorem handBackCommand_changes (slot : Byte) (s : State) : Changes s (handBackCommand slot s) := by
  unfold handBackCommand
  split
  · exact answer_changes _ s
  · split
    · exact answer_changes _ s
    · exact disposeSlot_changes _ _ s

/-- The report queue without its first report. -/
theorem reportCommand_changes (s : State) : Changes s (reportCommand s) := by
  unfold reportCommand
  split
  case h_1 => exact answer_changes _ s
  case h_2 oldest => exact ((Change.dropReport oldest).changes.trans (placeWaiting_moves _).changes).testDrain.respond _ _

theorem touchCommand_changes (addr : Address) (s : State) : Changes s (touchCommand addr s) := by
  unfold touchCommand
  split
  · exact (useAddress_changes _ s).answer _
  · exact answer_changes _ s

theorem forgetCommand_changes (s : State) : Changes s (forgetCommand s) := by
  unfold forgetCommand
  split
  · exact Changes.answer (.single .forget) _
  · exact answer_changes _ s

/-! ### Lines and masks -/

theorem maskedEntry_change (s : State) (l : Line) : EntryChange s l (maskedEntry (entryAt s l)) := by
  unfold maskedEntry
  split
  case h_1 quiet => exact ⟨.inl rfl, fun _ => .inr (by simp [quiet])⟩
  case h_2 latched => exact ⟨.inr (.inl ⟨rfl, latched⟩), fun _ => .inr ⟨nofun, nofun⟩⟩
  case h_3 tag latched live => exact ⟨.inr (.inr (.inl ⟨tag, latched, rfl, live⟩)), fun _ => .inr ⟨nofun, by simp⟩⟩

theorem serveLine_moves (l : Line) (s : State) : TicketMoves s (serveSources (serveSource l s)) := .single (.serve (.line l))

theorem unmaskLine_changes (l : Line) (s : State) : Changes s (unmaskLine l s) := by
  have cleared : Changes s (setEntry l { entryAt s l with masked := false, hold := false } s) :=
    setEntry_changes (.of_eq rfl nofun)
  unfold unmaskLine
  split
  · exact cleared.trans (serveLine_moves l _).changes
  · exact cleared

theorem maskCommand_changes (entry value : Byte) (s : State) : Changes s (maskCommand entry value s) := by
  unfold maskCommand
  split
  · exact answer_changes _ s
  · split
    · split
      · exact (setEntry_changes (maskedEntry_change s _)).answer _
      · split
        · exact (unmaskLine_changes _ s).answer _
        · exact answer_changes _ s
    · exact answer_changes _ s

theorem takeLevel_changes (l : Line) (high : Bool) (s : State) : Changes s (takeLevel l high s) :=
  setEntry_changes (.of_eq rfl id)

theorem edgeTaken_changes {l : Line} {s : State} (edge : isLevel s l = false) (creates : s.control.state.creates = true)
    (unmasked : (entryAt s l).masked = false) : Changes s (edgeTaken l s) := by
  have open' {e : SourceEntry} (same : e.masked = (entryAt s l).masked) : ¬ e.masked = true := by simp [same, unmasked]
  unfold edgeTaken
  split
  case h_1 quiet =>
    split
    case isTrue room =>
      have made : TicketMoves s (serveSources (makeSourceRecord l s)) :=
        .single (.make l (fun _ _ live => by rw [quiet] at live; cases live) creates (recordRoom_iff.1 room))
      exact made.changes
    case isFalse =>
      exact setEntry_changes
        ⟨.inr (.inr (.inr (.inl ⟨rfl, quiet, edge, creates⟩))), fun masked => absurd masked (open' rfl)⟩
  case h_2 => exact .refl
  case h_3 tag latched live =>
    exact setEntry_changes
      ⟨.inr (.inr (.inr (.inr ⟨tag, latched, rfl, live, edge⟩))), fun masked => absurd masked (open' rfl)⟩

theorem lineActivated_changes (l : Line) (s : State) : Changes s (lineActivated l s) := by
  unfold lineActivated
  split
  · exact .refl
  · refine (takeLevel_changes l (activeLevel s l) s).trans ?_
    unfold lineActs
    split
    · exact (serveLine_moves l _).changes
    · rename_i edge
      split
      case isTrue taken =>
        obtain ⟨creates, unmasked⟩ := Bool.and_eq_true_iff.1 taken
        exact edgeTaken_changes (by simpa using edge) creates (by simpa using unmasked)
      case isFalse => exact .refl

theorem lineInactivated_changes (l : Line) (s : State) : Changes s (lineInactivated l s) := by
  unfold lineInactivated
  split
  · simp only
    split
    · exact (takeLevel_changes l _ s).trans (setEntry_changes (.of_eq rfl id))
    · exact takeLevel_changes l _ s
  · exact .refl

/-! ### Timers -/

theorem backoffExpired_changes (tag : Tag) (s : State) : Changes s (backoffExpired tag s) := by
  unfold backoffExpired
  split
  · rename_i r found
    split
    case isTrue due => exact (putRecord_moves (findRecord_mem found).1 (by rw [due]; rfl) _).changes
    case isFalse => exact .refl
  · exact .refl

theorem deadlineExpired_changes (tag : Tag) (s : State) : Changes s (deadlineExpired tag s) := by
  unfold deadlineExpired
  split
  · rename_i r found
    split
    · exact (lapse_moves (findRecord_mem found).1).changes.testDrain
    · exact .refl
  · exact .refl

theorem drainLimitExpired_changes (s : State) : Changes s (drainLimitExpired s) := by
  unfold drainLimitExpired
  split
  · have passed : Elsewhere s { s with control.drainTimer := none, control.drainPassed := true } := {}
    exact (passed.changes.trans (withdrawRemaining_moves _).changes).testDrain
  · exact .refl

/-! ### The bus -/

theorem whenReceiving_changes {f : State → State} {s : State}
    (h : s.control.state.receives = true → Changes s (f s)) : Changes s (whenReceiving f s) := by
  unfold whenReceiving
  split
  case isTrue receiving => exact h (Bool.and_eq_true_iff.1 receiving).2
  case isFalse => exact .refl

theorem fromStation_changes {sender : StationNumber} {f : State → State} {s : State}
    (h : s.control.state.receives = true → Changes s (f s)) : Changes s (fromStation sender f s) := by
  unfold fromStation
  split
  case isTrue known =>
    have receiving := (Bool.and_eq_true_iff.1 known).1
    exact h (Bool.and_eq_true_iff.1 receiving).2
  case isFalse => exact .refl

theorem started_of_receives {st : StationState} (h : st.receives = true) : st.started = true := by
  cases st <;> first | rfl | cases h

theorem started_of_sends {st : StationState} (h : st.sends = true) : st.started = true := by
  cases st <;> first | rfl | cases h

theorem noticeAnswered_changes (n : NoticeFields) (s : State) : Changes s (noticeAnswered n s) := by
  have set (a : Answer) := (elsewhere_setAnswer a s).changes
  unfold noticeAnswered
  split
  · split
    · rename_i r matched
      obtain ⟨mem, play⟩ := matchNotice_inPlay matched
      have accepted := noticeAccepted_moves (wordNotice n) n.sender (s := setAnswer (.notice true false) s) mem play
      exact ((set _).trans accepted.changes).testDrain
    · exact set _
  · exact set _

theorem orphanPeer_changes (sender : StationNumber) (s : State) : Changes s (orphanPeer sender s) := by
  unfold orphanPeer
  split
  · exact (orphan_moves sender s).changes
  · exact .refl

theorem joinRead_changes (sender : StationNumber) (resumed clash : Bool) {s : State}
    (started : s.control.state.started = true) : Changes s (joinRead sender resumed clash s) := by
  unfold joinRead
  split
  · exact .refl
  · split
    · exact .single (.empty (emptied_enterFaultClash started))
    · split
      · exact (elsewhere_addToRoster sender s).changes
      · exact ((orphanPeer_changes sender s).trans (elsewhere_addToRoster sender _).changes).testDrain

theorem leaveRead_changes (sender : StationNumber) (s : State) : Changes s (leaveRead sender s) := by
  unfold leaveRead
  split
  · have removed (t : State) : Elsewhere t { t with control.roster := setRemove t.control.roster sender } := {}
    exact ((orphanPeer_changes sender s).trans (removed _).changes).testDrain
  · exact .refl

/-! ### The station's own frames -/

theorem startFrame_changes (c : Candidate) (f : Frame) (s : State) : Changes s (startFrame c f s) :=
  (elsewhere_startFrame c f s).changes

theorem chooseOffer_changes (tags : List Tag) (s : State) : Changes s (chooseOffer tags s) := by
  induction tags generalizing s with
  | nil => exact .refl
  | cons tag rest ih =>
    unfold chooseOffer
    split
    · exact ih s
    · rename_i r found
      have mem := (findRecord_mem found).1
      split
      case isTrue waiting =>
        split
        · exact (putRecord_moves mem (by rw [waiting]; rfl) _).changes.tail (.elsewhere (elsewhere_startFrame _ _ _))
        · exact (resolveRecord_moves .noPeer mem).changes.trans (ih _)
      case isFalse => exact ih s

theorem chooseFrame_changes (s : State) : Changes s (chooseFrame s) := by
  unfold chooseFrame
  split
  · split
    · exact startFrame_changes _ _ s
    · exact .refl
  · split
    · exact startFrame_changes _ _ s
    · split
      · exact startFrame_changes _ _ s
      · exact chooseOffer_changes _ s

theorem frameStart_changes (s : State) :
    Changes s (if freeToStart s then testDrain (chooseFrame { s with claim.offerInHand := none }) else s) := by
  split
  · exact ((elsewhere_dropOffer s).changes.trans (chooseFrame_changes _)).testDrain
  · exact .refl

theorem muteIfDue_changes (s : State) : Changes s (muteIfDue s) := by
  unfold muteIfDue
  split
  case isTrue due =>
    have started := started_of_sends (Bool.and_eq_true_iff.1 due).1
    refine Changes.trans (Elsewhere.changes ?_) (serveSources_moves _).changes
    exact { started := started.symm }
  case isFalse => exact .refl

theorem offerFrameEnded_changes (fate : OfferFate) (s : State) : Changes s (offerFrameEnded fate s) := by
  unfold offerFrameEnded
  split
  case h_1 tag own =>
    have before : Changes s (learnClaimant fate (dropHand fate (endOwnFrame (offerErrors s.bus.errorCount fate) s))) :=
      ((elsewhere_endOwnFrame _ s).changes.trans (elsewhere_dropHand fate _).changes).trans
        (elsewhere_learnClaimant fate _).changes
    exact ((before.trans (offerEnded_moves tag fate _).changes).trans (muteIfDue_changes _)).testDrain
  all_goals exact .refl

theorem noticeFrameEnded_changes (fate : NoticeFate) (s : State) : Changes s (noticeFrameEnded fate s) := by
  unfold noticeFrameEnded
  split
  case h_1 ref own =>
    have ended := (elsewhere_endOwnFrame (noticeErrors s.bus.errorCount fate) s).changes
    refine ((ended.trans ?_).trans (muteIfDue_changes _)).testDrain
    split
    · exact (noticeEnded_moves _ fate _).changes
    · exact .refl
  all_goals exact .refl

theorem enterOnline_changes (presence : StationSet) {s : State} (started : s.control.state.started = true) :
    Changes s (enterOnline presence s) := by
  unfold enterOnline
  refine Changes.trans (Changes.trans ?_ (handSelfNotices_moves _).changes) (serveSources_moves _).changes
  refine Relation.ReflTransGen.tail (Elsewhere.changes ?_) (.entries fun l => ?_)
  · exact { started := started.symm }
  · rw [vector_get_map]
    exact .of_eq rfl id

theorem joinFrameEnded_changes (fate : JoinFate) (s : State) : Changes s (joinFrameEnded fate s) := by
  unfold joinFrameEnded
  split
  case h_1 own =>
    have started := started_of_sends (ownCandidate_sends own)
    have ended := (elsewhere_endOwnFrame (joinErrors s.bus.errorCount fate) s).changes
    refine (ended.trans ?_).trans (muteIfDue_changes _)
    unfold joinEnded
    split
    case h_1 presence => exact enterOnline_changes presence started
    case h_2 => exact .single (.empty (emptied_enterFaultClash started))
    all_goals exact .refl
  all_goals exact .refl

theorem elsewhere_enterOffline {s : State} (started : s.control.state.started = true) : Elsewhere s (enterOffline s) where
  hand _ held := nomatch held
  started := started.symm

theorem leaveFrameEnded_changes (fate : LeaveFate) (s : State) : Changes s (leaveFrameEnded fate s) := by
  unfold leaveFrameEnded
  split
  case h_1 own =>
    have started := started_of_sends (ownCandidate_sends own)
    have ended := (elsewhere_endOwnFrame (leaveErrors s.bus.errorCount fate) s).changes
    refine (ended.trans ?_).trans (muteIfDue_changes _)
    unfold leaveEnded
    split
    case h_1 => exact (elsewhere_enterOffline (s := endOwnFrame _ s) started).changes
    all_goals exact .refl
  all_goals exact .refl

/-! ### Every command -/

/-- Every command but RESET_RELEASE, which gives every item its reset value, is a chain of changes. -/
theorem effect_changes {c : Instr} (notRelease : ∀ straps, c ≠ .resetRelease straps) (s : State) : Changes s (effect c s) := by
  cases c with
  | resetAssert => exact Elsewhere.changes { hand := fun _ held => nomatch held }
  | resetRelease straps => exact absurd rfl (notRelease straps)
  | configWrite g f v => exact writeConfig_changes g f v s
  | configRead g f => exact readConfig_changes g f s
  | join => exact joinCommand_changes s
  | drain => exact drainCommand_changes s
  | restart => exact restartCommand_changes s
  | submit c l p set a => exact submitCommand_changes c l p set a s
  | cancel tag => exact cancelCommand_changes tag s
  | query tag => exact queryCommand_changes tag s
  | take => exact takeCommand_changes s
  | finish i o => exact finishCommand_changes i o s
  | handBack i => exact handBackCommand_changes i s
  | report => exact reportCommand_changes s
  | status => exact Elsewhere.changes {}
  | mask e v => exact maskCommand_changes e v s
  | touch a => exact touchCommand_changes a s
  | forget => exact forgetCommand_changes s
  | roster => exact (elsewhere_respond _ _ s).changes
  | unknownCommandByte _ => exact answer_changes _ s
  | transactionDiscarded => exact Elsewhere.changes {}
  | lineBecomesActive l => exact lineActivated_changes l s
  | lineBecomesInactive l => exact lineInactivated_changes l s
  | deadlineTick => exact .single .tick
  | backoffExpiry tag => exact backoffExpired_changes tag s
  | deadlineExpiry tag => exact deadlineExpired_changes tag s
  | drainLimitExpiry => exact drainLimitExpired_changes s
  | synchronisationQuiet =>
    change Changes s (quietSeen s)
    unfold quietSeen
    split
    · exact Elsewhere.changes {}
    · exact .refl
  | unreadableKind _ => exact whenReceiving_changes fun _ => (elsewhere_loseSynchronisation s).changes
  | frameStart => exact frameStart_changes s
  | offerValidated o =>
    exact fromStation_changes (f := fun s => { s with claim.offerInHand := some (decideOffer o s) }) fun _ =>
      (Change.decide o).changes
  | claimAsRead bid claimant confirm => exact whenReceiving_changes fun _ => (Change.claim bid claimant confirm).changes
  | noticeReceived n =>
    refine fromStation_changes (f := fun s => if n.target = s.control.number then noticeAnswered n s else s) fun _ => ?_
    split
    · exact noticeAnswered_changes n s
    · exact .refl
  | noticeSenderLearned sender =>
    exact fromStation_changes (f := fun s => setAnswer .none (addToRoster sender s)) fun _ => Elsewhere.changes {}
  | joinAnswer sender =>
    exact fromStation_changes (f := fun s => setAnswer _ s) fun _ => (elsewhere_setAnswer _ s).changes
  | joinReceived sender resumed clash =>
    refine fromStation_changes (f := fun s => joinRead sender resumed clash (setAnswer .none s)) fun receives => ?_
    exact (elsewhere_setAnswer _ s).changes.trans (joinRead_changes sender resumed clash (started_of_receives receives))
  | leaveReceived sender =>
    refine fromStation_changes
      (f := fun s => leaveRead sender (setAnswer (if s.control.state.sends then .acknowledge else .none) s)) fun _ => ?_
    exact (elsewhere_setAnswer _ s).changes.trans (leaveRead_changes sender _)
  | offerFrameEnd fate => exact offerFrameEnded_changes fate s
  | noticeFrameFate fate => exact noticeFrameEnded_changes fate s
  | joinFrameEnd fate => exact joinFrameEnded_changes fate s
  | leaveFrameEnd fate => exact leaveFrameEnded_changes fate s
  | checkFoundBad => exact whenReceiving_changes fun _ => (elsewhere_setAnswer _ s).changes

/-! ### The empty queue -/

theorem Elsewhere.trans {s t u : State} (h : Elsewhere s t) (k : Elsewhere t u) : Elsewhere s u where
  records := k.records.trans h.records
  queue := k.queue.trans h.queue
  sources := k.sources.trans h.sources
  inbound := k.inbound.trans h.inbound
  slots := k.slots.trans h.slots
  affinity := k.affinity.trans h.affinity
  claimCounter := k.claimCounter.trans h.claimCounter
  number := k.number.trans h.number
  config := k.config.trans h.config
  locked := k.locked.trans h.locked
  hand hand held := by
    obtain ⟨mid, heldMid, offer, bid, upgrade⟩ := k.hand hand held
    obtain ⟨first, heldFirst, offer', bid', upgrade'⟩ := h.hand mid heldMid
    exact ⟨first, heldFirst, offer.trans offer', bid.trans bid', upgrade.trans upgrade'⟩
  started := k.started.trans h.started
  outside := k.outside.trans h.outside

theorem claimReads_keeps (field driven read : Bool) (h : OfferInHand) :
    (claimReads field driven read h).offer = h.offer ∧ (claimReads field driven read h).bid = h.bid ∧
      (claimReads field driven read h).upgrade = h.upgrade := by
  unfold claimReads
  split <;> exact ⟨rfl, rfl, rfl⟩

/-- What reading one bit inside a frame leaves in the claim and bus units. -/
theorem insideBit_bus_claim (read : Bool) (before : List Bool) (s : State) :
    ∃ bus : BusUnit, (insideBit read before s).1 = { s with
        bus := bus
        claim.offerInHand := s.claim.offerInHand.map
          (claimReads (inClaimField (before ++ [read]) (before ++ [read]).length) (drive s) read) } ∧
      bus.synchronised = s.bus.synchronised ∧ bus.errorCount = s.bus.errorCount ∧
      bus.ownFrame = s.bus.ownFrame.map (ownReads (before ++ [read]).length (drive s) read) := by
  unfold insideBit
  simp only
  split
  · exact ⟨_, rfl, rfl, rfl, rfl⟩
  · exact ⟨_, rfl, rfl, rfl, rfl⟩

theorem elsewhere_insideBit (read : Bool) (before : List Bool) (s : State) : Elsewhere s (insideBit read before s).1 := by
  obtain ⟨bus, eq, -⟩ := insideBit_bus_claim read before s
  rw [eq]
  refine { hand := fun h held => ?_ }
  obtain ⟨h', held', rfl⟩ := Option.map_eq_some_iff.1 held
  exact ⟨h', held', claimReads_keeps _ _ _ h'⟩

theorem elsewhere_busBit (read : Bool) (s : State) : Elsewhere s (busBit read s).1 := by
  unfold busBit
  split
  · exact {}
  · simp only
    split
    · exact {}
    · split
      · exact elsewhere_insideBit _ _ s
      · split
        · exact {}
        · exact {}

theorem sampleLine_keeps (s : State) (src : BitVec 8) (l : Line) :
    ∃ seen, (sampleLine s src l).1 = { entryAt s l with oppositeSeen := seen } := by
  unfold sampleLine
  simp only
  split
  · exact ⟨_, rfl⟩
  · split
    · exact ⟨_, rfl⟩
    · exact ⟨_, rfl⟩

/-! A step on the empty queue takes from the outside and adds to its queue; the changes are the station's part of it. -/

theorem bitPeriod_changes (dbd : Bool) (src : BitVec 8) (s : State) : Changes s ((bitPeriod dbd src s).withOutside s) := by
  unfold bitPeriod
  split
  · exact .refl
  · have sampled : Change s { s with sources := Vector.ofFn fun l => (sampleLine s src l).1 } := by
      refine .entries fun l => ?_
      obtain ⟨seen, eq⟩ := sampleLine_keeps s src l
      rw [vector_get_ofFn, eq]
      exact .of_eq rfl id
    have bus := elsewhere_busBit dbd s
    refine sampled.changes.trans (Elsewhere.changes ?_)
    exact { bus with sources := rfl, outside := rfl }

theorem takeInput_changes (e : PinInput) (s : State) : Changes s ((takeInput e s).withOutside s) := by
  cases e with
  | bitPeriod dbd src => exact bitPeriod_changes dbd src s
  | scsFall =>
    change Changes s ((portFall s).withOutside s)
    unfold portFall
    split <;> exact Elsewhere.changes {}
  | scsRise =>
    change Changes s ((portRise s).withOutside s)
    unfold portRise
    simp only
    split <;> exact Elsewhere.changes {}
  | sck sdi =>
    change Changes s ((portClock sdi s).withOutside s)
    unfold portClock
    split
    · exact .refl
    · split
      · exact Elsewhere.changes {}
      · simp only
        split
        · exact Elsewhere.changes {}
        · split <;> exact Elsewhere.changes {}

/-- Such a step on the station's part alone. -/
theorem idle_keeps {P : State → Prop} (change : ∀ {s t}, Change s t → P s → P t)
    (outside : ∀ {s} (u : State), P s → P (s.withOutside u)) {s : State} (start : P s) : P (idle s) := by
  unfold idle
  split
  · exact outside (queueEvents _ s) start
  · split
    · rename_i e rest _
      have before : P { s with inputs := rest } := outside { s with inputs := rest } start
      have taken := (takeInput_changes e { s with inputs := rest }).keeps change before
      have back := outside (takeInput e { s with inputs := rest }) taken
      exact back
    · exact start

/-! ### One step -/

/-- A step idles, or runs the command at the front of the queue. -/
theorem step_cases {s t : State} (h : step s = .next t) :
    (s.pending = [] ∧ t = idle s) ∨ ∃ c rest, s.pending = c :: rest ∧ exec c { s with pending := rest } = .next t := by
  unfold step at h
  split at h
  case h_1 c rest queue => exact .inr ⟨c, rest, queue, h⟩
  case h_2 empty => cases h; exact .inl ⟨empty, rfl⟩

theorem exec_cases {c : Instr} {s t : State} (h : exec c s = .next t) : t = s ∨ t = effect c s := by
  obtain ⟨u, next, cases⟩ := exec_next c s
  rw [h] at next
  cases next
  exact cases

/-- A law that each change keeps, that is none of the outside's, and that holds after RESET_RELEASE, every step keeps. -/
theorem step_keeps {P : State → Prop} {s t : State} (change : ∀ {s t}, Change s t → P s → P t)
    (outside : ∀ {s} (u : State), P s → P (s.withOutside u)) (reset : ∀ straps s, P (release straps s)) (h : step s = .next t) (start : P s) : P t := by
  rcases step_cases h with ⟨-, rfl⟩ | ⟨c, rest, -, run⟩
  · exact idle_keeps change outside start
  · have queued : P { s with pending := rest } := outside { s with pending := rest } start
    rcases exec_cases run with rfl | rfl
    · exact queued
    · by_cases release : ∃ straps, c = .resetRelease straps
      · obtain ⟨straps, rfl⟩ := release
        exact reset straps _
      · exact (effect_changes (fun straps is => release ⟨straps, is⟩) _).keeps change queued

/-! ### A claim read -/

theorem commitClaim_lists (h : OfferInHand) (s : State) :
    (commitClaim h s).offer = s.offer ∧ (commitClaim h s).reports = s.reports ∧
      (commitClaim h s).claim.affinity = s.claim.affinity ∧ (commitClaim h s).sources = s.sources ∧
      (commitClaim h s).control = s.control ∧ (commitClaim h s).claim.offerInHand = s.claim.offerInHand := by
  unfold commitClaim
  split
  · split
    · unfold commitUpgrade
      split
      · split <;> exact ⟨rfl, rfl, rfl, rfl, rfl, rfl⟩
      · exact ⟨rfl, rfl, rfl, rfl, rfl, rfl⟩
    · exact ⟨rfl, rfl, rfl, rfl, rfl, rfl⟩
  · exact ⟨rfl, rfl, rfl, rfl, rfl, rfl⟩

theorem commitClaim_outside (h : OfferInHand) (s : State) : (commitClaim h s).outside = s.outside := by
  unfold commitClaim
  split
  · split
    · unfold commitUpgrade
      split
      · split <;> rfl
      · rfl
    · rfl
  · rfl

/-- Reading a claim writes the work unit, the roster and the offer in hand. -/
theorem claimRead_lists (bid : BitVec 6) (claimant : StationNumber) (confirm : Bool) (s : State) :
    (claimRead bid claimant confirm s).offer = s.offer ∧ (claimRead bid claimant confirm s).reports = s.reports ∧
      (claimRead bid claimant confirm s).claim.affinity = s.claim.affinity ∧
      (claimRead bid claimant confirm s).sources = s.sources ∧
      (claimRead bid claimant confirm s).control =
        { s.control with roster := (claimRead bid claimant confirm s).control.roster } := by
  unfold claimRead
  split
  · exact ⟨rfl, rfl, rfl, rfl, rfl⟩
  · rename_i h _
    simp only
    split
    · split
      · obtain ⟨offer, reports, affinity, sources, control, -⟩ := commitClaim_lists h
          (addToRoster claimant { addToRoster h.offer.sender s with claim.offerInHand := none, bus.answer := .none })
        exact ⟨offer, reports, affinity, sources, by rw [control]; rfl⟩
      · exact ⟨rfl, rfl, rfl, rfl, rfl⟩
    · exact ⟨rfl, rfl, rfl, rfl, rfl⟩

theorem claimRead_outside (bid : BitVec 6) (claimant : StationNumber) (confirm : Bool) (s : State) :
    (claimRead bid claimant confirm s).outside = s.outside := by
  unfold claimRead
  split
  · rfl
  · simp only
    split
    · split
      · exact commitClaim_outside _ _
      · rfl
    · rfl

/-! ### The station number, and the state after reset -/

theorem Change.number {s t : State} (change : Change s t) : t.control.number = s.control.number := by
  cases change with
  | ticket step => rw [step.onlyTickets.control]
  | elsewhere same => exact same.number
  | empty empty => exact empty.number
  | claim bid claimant confirm =>
    obtain ⟨-, -, -, -, control⟩ := claimRead_lists bid claimant confirm s
    rw [control]
  | _ => rfl

/-- Settles O49: a command that is no RESET_RELEASE is a chain of changes, and none of them writes the number. -/
theorem stationNumberHeld : Obligations.StationNumberHeld := by
  intro c s t notRelease run
  rcases exec_cases run with rfl | rfl
  · rfl
  · exact (effect_changes notRelease s).keeps (P := fun t => t.control.number = s.control.number)
      (fun change same => change.number.trans same) rfl

/-- Settles O7: after reset every list is empty, every entry QUIET, and no candidate or timer stands. -/
theorem resetStateIsSound : Obligations.ResetStateIsSound := by
  intro straps
  have entry (l : Line) : entryAt (State.afterReset straps) l = SourceEntry.reset := vector_get_replicate 8 l _
  have slot (i : Fin 8) : (State.afterReset straps).work.slots.get i = none := vector_get_replicate 8 i none
  have silent (l : Line) : waitingSource (State.afterReset straps) l = false := by
    simp [waitingSource, entry, SourceEntry.reset]
  have quiet (l : Line) : (entryAt (State.afterReset straps) l).state = .quiet := by rw [entry]; rfl
  have latched (l : Line) : (entryAt (State.afterReset straps) l).state ≠ .latched ∧
      ∀ tag, (entryAt (State.afterReset straps) l).state ≠ .live tag true := by
    rw [quiet]; exact ⟨nofun, nofun⟩
  have copies : (State.afterReset straps).copies = [] := by
    simp [State.copies, State.afterReset, Vector.toList_replicate]
  have state : (State.afterReset straps).control.state = if straps = 15 then .faultNumber else .unconfigured := rfl
  have lists : (State.afterReset straps).ListsSound := by
    simp [State.ListsSound, State.afterReset]
  have work : (State.afterReset straps).WorkSound := by
    refine ⟨Nat.zero_le _, .nil, .nil, nofun, ?_, nofun⟩
    rw [copies]; exact .nil
  have control : (State.afterReset straps).ControlSound := by
    refine ⟨?_, ?_, nofun, ?_, nofun, ?_, ?_, nofun, nofun, Nat.zero_le _, fun _ => Nat.zero_le _⟩
    all_goals
      rw [state]
      split <;> simp_all [State.afterReset, StationControl.reset, StationState.answers]
  have tickets : (State.afterReset straps).TicketsSound :=
    ⟨⟨fun _ => quiet, fun l _ => latched l⟩, fun l tag edge live => by simp [quiet] at live, nofun,
      fun some => absurd rfl some, nofun⟩
  have served : (State.afterReset straps).ServedSound :=
    ⟨fun l waits => by simp [silent] at waits, fun l _ => latched l, fun _ => quiet⟩
  have drain : (State.afterReset straps).DrainSound := by
    intro draining
    rw [state] at draining
    split at draining <;> cases draining
  exact ⟨lists, work, control, tickets, served, drain⟩

theorem release_sound (straps : StationNumber) (s : State) : (release straps s).Sound := resetStateIsSound straps

end Sys2Proof.Machine
end

section
/-! PROOFS. The lists keep within their sizes, with no tag and no block twice (R77, R134, R162): each change keeps it. -/

namespace Sys2Proof.Machine

/-! ### The outbound list -/

/-- The list has room for its records, and no tag stands twice (R77). -/
def TagsSound (records : List OutRecord) : Prop := records.length ≤ 32 ∧ (records.map (·.tag)).Nodup

theorem map_put_tags (r : OutRecord) (records : List OutRecord) :
    (records.map fun x => if x.tag == r.tag then r else x).map (·.tag) = records.map (·.tag) := by
  rw [List.map_map]
  refine List.map_congr_left fun x _ => ?_
  simp only [Function.comp_apply]
  split
  case isTrue same => exact (beq_iff_eq.1 same).symm
  case isFalse => rfl

theorem TagsSound.put {records : List OutRecord} (h : TagsSound records) (r : OutRecord) :
    TagsSound (records.map fun x => if x.tag == r.tag then r else x) := by
  obtain ⟨size, nodup⟩ := h
  exact ⟨by simpa using size, by rwa [map_put_tags]⟩

theorem TagsSound.sublist {records records' : List OutRecord} (h : TagsSound records) (sub : records'.Sublist records) :
    TagsSound records' := by
  obtain ⟨size, nodup⟩ := h
  exact ⟨sub.length_le.trans size, (sub.map _).nodup nodup⟩

theorem TagsSound.drop {records : List OutRecord} (h : TagsSound records) (tag : Tag) : TagsSound (dropRecord tag records) :=
  h.sublist List.filter_sublist

theorem TagsSound.append {records : List OutRecord} (h : TagsSound records) {r : OutRecord} (room : records.length < 32)
    (fresh : ∀ x ∈ records, x.tag ≠ r.tag) : TagsSound (records ++ [r]) := by
  obtain ⟨-, nodup⟩ := h
  refine ⟨by simpa using room, ?_⟩
  rw [List.map_append]
  refine List.Nodup.append nodup (List.nodup_singleton _) fun tag old new => ?_
  obtain ⟨x, mem, rfl⟩ := List.mem_map.1 old
  exact fresh x mem (by simpa using new)

/-! ### The three lists -/

theorem listsSound_iff {s : State} : s.ListsSound ↔ TagsSound s.offer.records ∧ s.reports.queue.length ≤ 16 ∧
    s.claim.affinity.length ≤ 16 ∧ s.claim.affinity.Nodup := and_assoc.symm

/-- The lists of `t` are sound where its records and reports are and the affinity table is that of `s`. -/
theorem State.ListsSound.of_parts {s t : State} (h : s.ListsSound) (records : TagsSound t.offer.records)
    (queue : t.reports.queue.length ≤ 16) (affinity : t.claim.affinity = s.claim.affinity) : t.ListsSound := by
  obtain ⟨-, -, table⟩ := listsSound_iff.1 h
  exact listsSound_iff.2 ⟨records, queue, affinity ▸ table⟩

theorem State.ListsSound.tags {s : State} (h : s.ListsSound) : TagsSound s.offer.records := (listsSound_iff.1 h).1

theorem State.ListsSound.queue {s : State} (h : s.ListsSound) : s.reports.queue.length ≤ 16 := (listsSound_iff.1 h).2.1

theorem fixResolution_listsSound (r : OutRecord) (res : Resolution) {s : State} (h : s.ListsSound) :
    (fixResolution r res s).ListsSound := by
  have claim := (onlyTickets_fixResolution r res s).claim
  refine h.of_parts ?_ ?_ (by rw [claim])
  all_goals rw [fixResolution_eq]; split
  · split
    · simpa using h.tags.drop r.tag
    · have put := h.tags.put { r with state := .resolved res s.reports.resolutionCounter }
      simpa using put
  · simpa using h.tags.drop r.tag
  · split
    case isTrue room => simpa using reportRoom_iff.1 room
    case isFalse => simpa using h.queue
  · simpa using h.queue

theorem placeRecord_listsSound {r : OutRecord} {s : State} (h : s.ListsSound) (room : s.offer.records.length < 32)
    (fresh : ∀ x ∈ s.offer.records, x.tag ≠ r.tag) : (placeRecord r s).ListsSound :=
  h.of_parts (h.tags.append room fresh) h.queue rfl

theorem createRecord_listsSound (f : TicketFields) {s : State} (h : s.ListsSound) (room : s.offer.records.length < 32) :
    (createRecord f s).ListsSound := by
  have placed : (placeRecord (newRecord f s) s).ListsSound := placeRecord_listsSound h room (nextTag_firstFree room).1
  unfold createRecord
  simp only
  split
  · exact placed
  · exact fixResolution_listsSound _ _ placed

theorem TicketStep.listsSound {s t : State} (step : TicketStep s t) (h : s.ListsSound) : t.ListsSound := by
  cases step with
  | put => exact h.of_parts (h.tags.put _) h.queue rfl
  | fix res => exact fixResolution_listsSound _ res h
  | make l idle creates room => exact createRecord_listsSound (s := setEntry l _ s) _ h room
  | create f soft creates room => exact createRecord_listsSound f h room
  | leave res mem room =>
    refine h.of_parts ?_ ?_ ?_
    · simpa using h.tags.drop _
    · simpa using room
    · rw [(onlyTickets_leaveList _ _).claim]; rfl
  | reportCopy n how room => exact h.of_parts h.tags (by simpa using room) rfl
  | count => exact h
  | freeCopy ref => rw [freeCopy_eq]; exact h
  | writeNotice n => rw [writeNotice_eq]; exact h

/-! ### The affinity table -/

theorem useBlock_nodup (block : Nat) {table : List Nat} (nodup : table.Nodup) : (useBlock block table).Nodup := by
  refine (List.take_sublist _ _).nodup (List.nodup_cons.2 ⟨?_, nodup.filter _⟩)
  simp

theorem useBlock_length (block : Nat) (table : List Nat) : (useBlock block table).length ≤ 16 := by
  simp [useBlock, Config.maxAffinity]

/-! ### Every step -/

theorem tick_tags (s : State) : (tick s).offer.records.map (·.tag) = s.offer.records.map (·.tag) := by
  simp [tick, Function.comp_def]

theorem Change.listsSound {s t : State} (change : Change s t) (h : s.ListsSound) : t.ListsSound := by
  obtain ⟨tags, queue, size, nodup⟩ := listsSound_iff.1 h
  cases change with
  | ticket step => exact step.listsSound h
  | elsewhere same => exact h.of_parts (same.records ▸ tags) (same.queue ▸ queue) same.affinity
  | tick =>
    refine h.of_parts ⟨?_, ?_⟩ queue rfl
    · simpa [Machine.tick] using tags.1
    · rw [tick_tags]; exact tags.2
  | entries => exact h
  | configure => exact h
  | lock => exact h
  | empty empty =>
    refine listsSound_iff.2 ⟨?_, ?_, ?_⟩
    · rw [empty.records]; exact ⟨Nat.zero_le _, List.nodup_nil⟩
    · rcases empty.queue with none | same
      · rw [none]; exact Nat.zero_le _
      · rw [same]; exact queue
    · rcases empty.affinity with none | same
      · rw [none]; exact ⟨Nat.zero_le _, List.nodup_nil⟩
      · rw [same]; exact ⟨size, nodup⟩
  | dropReport oldest => exact h.of_parts tags (by rw [oldest] at queue; exact le_of_lt queue) rfl
  | use block => exact listsSound_iff.2 ⟨tags, queue, useBlock_length _ _, useBlock_nodup _ nodup⟩
  | forget => exact listsSound_iff.2 ⟨tags, queue, Nat.zero_le _, List.nodup_nil⟩
  | take => exact h
  | dispose => exact h
  | turn => exact h
  | decide => exact h
  | claim bid claimant confirm =>
    obtain ⟨offer, reports, affinity, -⟩ := claimRead_lists bid claimant confirm s
    exact h.of_parts (offer ▸ tags) (reports ▸ queue) affinity

/-- Settles O55: a step is a chain of changes, and each change keeps the lists sound. -/
theorem listsStaySound : Obligations.ListsStaySound :=
  fun _ _ sound step => step_keeps Change.listsSound (fun _ lists => lists) (fun straps s => (release_sound straps s).1) step sound

end Sys2Proof.Machine
end

section
/-! PROOFS. The work unit (R133, R141 to R143): the inbound queue in its order and size, no ticket held twice, and a bid for a new
ticket with a free place and no held copy beside it. Each change keeps it. -/

namespace Sys2Proof.Machine

/-! ### The copies held, by place -/

/-- The (originator, tag) of an inbound record (R143). -/
def InRecord.ticket (r : InRecord) : StationNumber × Tag := (r.originator, r.tag)

/-- The (originator, tag) of an in-service entry (R143). -/
def ServiceEntry.ticket (e : ServiceEntry) : StationNumber × Tag := (e.originator, e.tag)

theorem slotTickets_eq (slots : Vector (Option ServiceEntry) 8) :
    slots.toList.filterMap (fun x => x.map fun e => (e.originator, e.tag)) =
      (List.finRange 8).filterMap fun i => (slots.get i).map ServiceEntry.ticket := by
  rw [vector_toList_eq_map, List.filterMap_map]
  rfl

theorem mem_copies {s : State} {c : StationNumber × Tag} : c ∈ s.copies ↔
    (∃ r ∈ s.work.inbound, r.ticket = c) ∨ ∃ i e, s.work.slots.get i = some e ∧ e.ticket = c := by
  unfold State.copies
  rw [slotTickets_eq, List.mem_append, List.mem_map, List.mem_filterMap]
  refine or_congr Iff.rfl ⟨?_, ?_⟩
  · rintro ⟨i, -, held⟩
    obtain ⟨e, at_i, same⟩ := Option.map_eq_some_iff.1 held
    exact ⟨i, e, at_i, same⟩
  · rintro ⟨i, e, at_i, same⟩
    exact ⟨i, List.mem_finRange i, Option.map_eq_some_iff.2 ⟨e, at_i, same⟩⟩

/-- No two slots hold one ticket. -/
def SlotsApart (slots : Vector (Option ServiceEntry) 8) : Prop :=
  ∀ i j e e', slots.get i = some e → slots.get j = some e' → e.ticket = e'.ticket → i = j

theorem slotTickets_nodup {slots : Vector (Option ServiceEntry) 8} :
    ((List.finRange 8).filterMap fun i => (slots.get i).map ServiceEntry.ticket).Nodup ↔ SlotsApart slots := by
  unfold List.Nodup
  rw [List.pairwise_filterMap]
  constructor
  · intro apart i j e e' at_i at_j same
    by_contra ne
    have symm : Std.Symm fun i j : Fin 8 => ∀ b, (slots.get i).map ServiceEntry.ticket = some b →
        ∀ b', (slots.get j).map ServiceEntry.ticket = some b' → b ≠ b' :=
      ⟨fun _ _ h b hb b' hb' eq => h b' hb' b hb eq.symm⟩
    exact apart.forall (List.mem_finRange i) (List.mem_finRange j) ne _ (by rw [at_i]; rfl) _ (by rw [at_j]; rfl) same
  · intro apart
    refine (List.nodup_finRange 8).pairwise_of_forall_ne fun i _ j _ ne b hb b' hb' same => ne ?_
    obtain ⟨e, at_i, rfl⟩ := Option.map_eq_some_iff.1 hb
    obtain ⟨e', at_j, rfl⟩ := Option.map_eq_some_iff.1 hb'
    exact apart i j e e' at_i at_j same

/-- No ticket is held twice: not in the queue, not in the slots, not in both (R143). -/
theorem copies_nodup_iff {s : State} : s.copies.Nodup ↔ (s.work.inbound.map InRecord.ticket).Nodup ∧
    SlotsApart s.work.slots ∧ ∀ r ∈ s.work.inbound, ∀ i e, s.work.slots.get i = some e → r.ticket ≠ e.ticket := by
  unfold State.copies
  rw [slotTickets_eq, List.nodup_append, slotTickets_nodup]
  refine and_congr Iff.rfl (and_congr Iff.rfl ⟨fun apart r mem i e at_i => ?_, fun apart => ?_⟩)
  · exact apart _ (List.mem_map_of_mem mem) _
      (List.mem_filterMap.2 ⟨i, List.mem_finRange i, by rw [at_i]; rfl⟩)
  · intro c queued c' slotted
    obtain ⟨r, mem, rfl⟩ := List.mem_map.1 queued
    obtain ⟨i, -, held⟩ := List.mem_filterMap.1 slotted
    obtain ⟨e, at_i, rfl⟩ := Option.map_eq_some_iff.1 held
    exact apart r mem i e at_i

theorem isCopy_ticket {r x : InRecord} : isCopy r.originator r.tag x = true ↔ x.ticket = r.ticket := by
  rw [isCopy_iff]
  exact Prod.mk_inj.symm

/-! ### The queue -/

/-- The record in its first state: what the laws of the queue look at. -/
def InRecord.base (r : InRecord) : InRecord := { r with state := .waiting }

/-- The queue keeps within its size (R141) and in its order (R142), with claim sequence numbers given once (R133). -/
def QueueSound (q : List InRecord) (counter : Nat) : Prop :=
  q.length ≤ 24 ∧ q.Pairwise (fun a b => queueBefore a b = true) ∧ (q.map (·.claimSequence)).Nodup ∧
    ∀ r ∈ q, r.claimSequence < counter

/-- A queue that has lost records, or seen them turn RETURNING, is sound still. -/
theorem QueueSound.shrink {q q' : List InRecord} {counter : Nat} (h : QueueSound q counter)
    (sub : (q'.map InRecord.base).Sublist (q.map InRecord.base)) : QueueSound q' counter := by
  have base (q : List InRecord) : QueueSound (q.map InRecord.base) counter ↔ QueueSound q counter := by
    unfold QueueSound
    rw [List.length_map, List.pairwise_map, List.map_map, List.forall_mem_map]
    rfl
  rw [← base] at h ⊢
  obtain ⟨size, sorted, numbers, below⟩ := h
  exact ⟨sub.length_le.trans size, sorted.sublist sub, (sub.map _).nodup numbers, fun r mem => below r (sub.subset mem)⟩

theorem base_sublist_ticket {q q' : List InRecord} (sub : (q'.map InRecord.base).Sublist (q.map InRecord.base)) :
    (q'.map InRecord.ticket).Sublist (q.map InRecord.ticket) := by
  have ticket (q : List InRecord) : (q.map InRecord.base).map InRecord.ticket = q.map InRecord.ticket := by
    rw [List.map_map]; rfl
  rw [← ticket q', ← ticket q]
  exact sub.map _

/-! ### The law in parts -/

/-- A bid for a new ticket has a place, and no copy beside it (R122, R123, R131). -/
def HandSound (s : State) : Prop :=
  ∀ h, s.claim.offerInHand = some h → h.bid ≠ none → h.upgrade = false →
    s.work.inbound.length < 24 ∧ (h.offer.sender, h.offer.tag) ∉ s.copies

theorem workSound_iff {s : State} : s.WorkSound ↔
    QueueSound s.work.inbound s.claim.claimCounter ∧ s.copies.Nodup ∧ HandSound s := by
  unfold State.WorkSound QueueSound HandSound
  simp only [and_assoc]

theorem handSound_of_none {s : State} (h : s.claim.offerInHand = none) : HandSound s := by
  intro hand held
  rw [h] at held
  cases held

/-- From `s` to `t` records have left the queue or turned RETURNING, and no ticket is held that was not. -/
theorem State.WorkSound.shrink {s t : State} (h : s.WorkSound)
    (sub : (t.work.inbound.map InRecord.base).Sublist (s.work.inbound.map InRecord.base))
    (slots : s.copies.Nodup → t.copies.Nodup) (subset : t.copies ⊆ s.copies) (counter : t.claim.claimCounter = s.claim.claimCounter)
    (hand : ∀ h, t.claim.offerInHand = some h → ∃ h', s.claim.offerInHand = some h' ∧ h.offer = h'.offer ∧
      h.bid = h'.bid ∧ h.upgrade = h'.upgrade) : t.WorkSound := by
  obtain ⟨queue, nodup, room⟩ := workSound_iff.1 h
  refine workSound_iff.2 ⟨counter ▸ queue.shrink sub, slots nodup, fun x held bids new => ?_⟩
  obtain ⟨x', held', offer, bid, upgrade⟩ := hand x held
  obtain ⟨free, unheld⟩ := room x' held' (bid ▸ bids) (upgrade ▸ new)
  refine ⟨lt_of_le_of_lt (by simpa using sub.length_le) free, fun mem => unheld ?_⟩
  rw [← offer]
  exact subset mem

/-- The slots keep their tickets, but for those emptied. -/
theorem copies_shrink {s t : State} (sub : (t.work.inbound.map InRecord.base).Sublist (s.work.inbound.map InRecord.base))
    (slots : ∀ i e, t.work.slots.get i = some e → ∃ e', s.work.slots.get i = some e' ∧ e.ticket = e'.ticket) :
    (s.copies.Nodup → t.copies.Nodup) ∧ t.copies ⊆ s.copies := by
  have tickets := base_sublist_ticket sub
  have queued {r : InRecord} (mem : r ∈ t.work.inbound) : ∃ r' ∈ s.work.inbound, r'.ticket = r.ticket :=
    List.mem_map.1 (tickets.subset (List.mem_map_of_mem mem))
  refine ⟨fun nodup => ?_, fun c mem => ?_⟩
  · obtain ⟨inbound, apart, disjoint⟩ := copies_nodup_iff.1 nodup
    refine copies_nodup_iff.2 ⟨tickets.nodup inbound, fun i j e e' at_i at_j same => ?_, fun r mem i e at_i same => ?_⟩
    · obtain ⟨x, at_i', eq⟩ := slots i e at_i
      obtain ⟨x', at_j', eq'⟩ := slots j e' at_j
      exact apart i j x x' at_i' at_j' (eq.symm.trans (same.trans eq'))
    · obtain ⟨x, at_i', eq⟩ := slots i e at_i
      obtain ⟨r', mem', eq'⟩ := queued mem
      exact disjoint r' mem' i x at_i' (eq'.trans (same.trans eq))
  · rw [mem_copies] at mem ⊢
    rcases mem with ⟨r, mem, rfl⟩ | ⟨i, e, at_i, rfl⟩
    · obtain ⟨r', mem', eq⟩ := queued mem
      exact .inl ⟨r', mem', eq⟩
    · obtain ⟨e', at_i', eq⟩ := slots i e at_i
      exact .inr ⟨i, e', at_i', eq.symm⟩

/-- `shrink` with the slots place by place. -/
theorem State.WorkSound.shrinkSlots {s t : State} (h : s.WorkSound)
    (sub : (t.work.inbound.map InRecord.base).Sublist (s.work.inbound.map InRecord.base))
    (slots : ∀ i e, t.work.slots.get i = some e → ∃ e', s.work.slots.get i = some e' ∧ e.ticket = e'.ticket)
    (counter : t.claim.claimCounter = s.claim.claimCounter)
    (hand : ∀ h, t.claim.offerInHand = some h → ∃ h', s.claim.offerInHand = some h' ∧ h.offer = h'.offer ∧
      h.bid = h'.bid ∧ h.upgrade = h'.upgrade) : t.WorkSound :=
  h.shrink sub (copies_shrink sub slots).1 (copies_shrink sub slots).2 counter hand

theorem State.WorkSound.of_eq {s t : State} (h : s.WorkSound) (work : t.work = s.work) (claim : t.claim = s.claim) :
    t.WorkSound := by
  unfold State.WorkSound State.copies at h ⊢
  rwa [work, claim]

/-! ### Freeing a copy and writing its notice -/

theorem map_base_of_states {q : List InRecord} {f : InRecord → InRecord} (h : ∀ r ∈ q, (f r).base = r.base) :
    (q.map f).map InRecord.base = q.map InRecord.base := by
  rw [List.map_map]
  exact List.map_congr_left h

theorem freeCopy_workSound (ref : CopyRef) {s : State} (h : s.WorkSound) : (freeCopy ref s).WorkSound := by
  have hand : ∀ x, s.claim.offerInHand = some x → ∃ x', s.claim.offerInHand = some x' ∧ x.offer = x'.offer ∧
      x.bid = x'.bid ∧ x.upgrade = x'.upgrade := fun x held => ⟨x, held, rfl, rfl, rfl⟩
  cases ref with
  | slot i =>
    refine h.shrinkSlots (.refl _) (fun j e at_j => ⟨e, ?_, rfl⟩) rfl hand
    simp only [freeCopy_slot, setSlot_work, vector_get_set] at at_j
    split at at_j
    · cases at_j
    · exact at_j
  | inbound o tag => exact h.shrinkSlots (List.filter_sublist.map _) (fun i e at_i => ⟨e, at_i, rfl⟩) rfl hand

/-- An entry's state does not say whose ticket it is. -/
theorem setSlot_state_workSound {i : Fin 8} {e : ServiceEntry} {s : State} (held : s.work.slots.get i = some e)
    (state : ServiceState) (h : s.WorkSound) : (setSlot i (some { e with state := state }) s).WorkSound := by
  refine h.shrinkSlots (.refl _) (fun j e' at_j => ?_) rfl fun x held => ⟨x, held, rfl, rfl, rfl⟩
  simp only [setSlot_work, vector_get_set] at at_j
  split at at_j
  case isTrue own => subst own; cases at_j; exact ⟨e, held, rfl⟩
  case isFalse => exact ⟨e', at_j, rfl⟩

theorem writeNotice_workSound (n : HeldNotice) {s : State} (h : s.WorkSound) : (writeNotice n s).WorkSound := by
  unfold writeNotice
  split
  · split
    · rename_i held
      exact setSlot_state_workSound held _ h
    · exact h
  · refine h.shrinkSlots ?_ (fun i e at_i => ⟨e, at_i, rfl⟩) rfl fun x held => ⟨x, held, rfl, rfl, rfl⟩
    rw [setInbound_work, map_base_of_states]
    intro r _
    split <;> rfl

theorem TicketStep.workSound {s t : State} (step : TicketStep s t) (h : s.WorkSound) : t.WorkSound := by
  have beside {t : State} (only : OnlyTickets s t) : t.WorkSound := h.of_eq only.work only.claim
  cases step with
  | put => exact beside (onlyTickets_putRecord _ s)
  | fix res => exact beside (onlyTickets_fixResolution _ res s)
  | make l => exact beside (onlyTickets_makeSourceRecord l s)
  | create f => exact beside (onlyTickets_createRecord f s)
  | leave res => exact beside ((onlyTickets_pushReport _ s).trans (onlyTickets_leaveList _ _))
  | reportCopy => exact h
  | count => exact h
  | freeCopy ref => exact freeCopy_workSound ref h
  | writeNotice n => exact writeNotice_workSound n h

/-! ### TAKE, DRAIN -/

theorem take_workSound {i : Fin 8} {r : InRecord} {s : State} (mem : r ∈ s.work.inbound)
    (free : s.work.slots.get i = none) (h : s.WorkSound) :
    (setSlot i (some (takenEntry r)) (freeCopy (.inbound r.originator r.tag) s)).WorkSound := by
  set t := setSlot i (some (takenEntry r)) (freeCopy (.inbound r.originator r.tag) s) with ht
  have kept {x : InRecord} (left : x ∈ t.work.inbound) : x ∈ s.work.inbound ∧ x.ticket ≠ r.ticket := by
    obtain ⟨mem, other⟩ := List.mem_filter.1 left
    exact ⟨mem, fun same => by simp [isCopy_ticket.2 same] at other⟩
  have slot {j : Fin 8} {e : ServiceEntry} (at_j : t.work.slots.get j = some e) :
      (j = i ∧ e.ticket = r.ticket) ∨ s.work.slots.get j = some e := by
    simp only [ht, setSlot_work, vector_get_set] at at_j
    split at at_j
    case isTrue own => cases at_j; exact .inl ⟨own.symm, rfl⟩
    case isFalse => exact .inr at_j
  have sub : (t.work.inbound.map InRecord.base).Sublist (s.work.inbound.map InRecord.base) := List.filter_sublist.map _
  refine h.shrink sub (fun nodup => ?_) (fun c held => ?_) rfl fun x held => ⟨x, held, rfl, rfl, rfl⟩
  · obtain ⟨inbound, apart, disjoint⟩ := copies_nodup_iff.1 nodup
    refine copies_nodup_iff.2 ⟨(base_sublist_ticket sub).nodup inbound, fun j k e e' at_j at_k same => ?_,
      fun x left j e at_j same => ?_⟩
    · rcases slot at_j with ⟨rfl, own⟩ | old <;> rcases slot at_k with ⟨rfl, own'⟩ | old'
      · rfl
      · exact absurd (own.symm.trans same) (disjoint r mem _ _ old')
      · exact absurd (own'.symm.trans same.symm) (disjoint r mem _ _ old)
      · exact apart _ _ _ _ old old' same
    · obtain ⟨mem', other⟩ := kept left
      rcases slot at_j with ⟨rfl, own⟩ | old
      · exact other (same.trans own)
      · exact disjoint x mem' _ _ old same
  · rw [mem_copies] at held ⊢
    rcases held with ⟨x, left, rfl⟩ | ⟨j, e, at_j, rfl⟩
    · exact .inl ⟨x, (kept left).1, rfl⟩
    · rcases slot at_j with ⟨rfl, own⟩ | old
      · exact .inl ⟨r, mem, own.symm⟩
      · exact .inr ⟨j, e, old, rfl⟩

theorem turnReturning_base (age : Nat) (q : List InRecord) :
    (turnReturning age q).1.map InRecord.base = q.map InRecord.base := by
  induction q generalizing age with
  | nil => rfl
  | cons r q ih =>
    unfold turnReturning
    split
    · exact congrArg (r.base :: ·) (ih _)
    · exact congrArg (r.base :: ·) (ih _)

theorem returnWaiting_workSound {s : State} (h : s.WorkSound) : (returnWaiting s).WorkSound :=
  h.shrinkSlots (by rw [← turnReturning_base s.work.noticeCounter s.work.inbound]; exact .refl _)
    (fun i e at_i => ⟨e, at_i, rfl⟩) rfl fun x held => ⟨x, held, rfl, rfl, rfl⟩

/-! ### The decision and the commit (R121 to R123, R129, R130) -/

/-- A bid for a new ticket is given with a place free and no copy held (R122, R123). -/
theorem eligible_new_iff_unheld {o : OfferFields} {s : State} (new : eligible o s = some false) :
    s.work.inbound.length < 24 ∧ (o.sender, o.tag) ∉ s.copies := by
  unfold eligible at new
  split at new
  · cases new
  · rename_i able
    have noSlot : inService o.sender o.tag s = false := by
      simp only [Bool.or_eq_true, not_or, Bool.not_eq_true] at able
      exact able.2
    split at new
    · split at new <;> cases new
    · rename_i none
      split at new
      case isFalse => cases new
      case isTrue room =>
        refine ⟨room, fun held => ?_⟩
        rcases mem_copies.1 held with ⟨r, mem, same⟩ | ⟨i, e, at_i, same⟩
        · exact inboundCopy_none.1 none r mem (Prod.mk.inj same)
        · exact not_inService_iff.1 noSlot i e at_i (Prod.mk.inj same)

theorem decide_workSound (o : OfferFields) {s : State} (h : s.WorkSound) :
    ({ s with claim.offerInHand := some (decideOffer o s) } : State).WorkSound := by
  obtain ⟨queue, nodup, -⟩ := workSound_iff.1 h
  refine workSound_iff.2 ⟨queue, nodup, fun hand held bids new => ?_⟩
  cases held
  unfold decideOffer at bids new ⊢
  split at bids
  · rename_i upgrade eligible
    rw [eligible] at new
    cases (new : upgrade = false)
    exact eligible_new_iff_unheld eligible
  · exact absurd rfl bids

theorem insertInbound_length (r : InRecord) (q : List InRecord) : (insertInbound r q).length = q.length + 1 :=
  (insertInbound_perm r q).length_eq

theorem mem_insertInbound {r x : InRecord} {q : List InRecord} : x ∈ insertInbound r q ↔ x = r ∨ x ∈ q :=
  (insertInbound_perm r q).mem_iff.trans List.mem_cons

/-- A record with a number of its own, below the counter, is put in the queue. -/
theorem QueueSound.insert {q : List InRecord} {counter : Nat} {r : InRecord} (h : QueueSound q counter)
    (room : q.length < 24) (own : ∀ x ∈ q, x.claimSequence ≠ r.claimSequence) {next : Nat} (le : counter ≤ next)
    (below : r.claimSequence < next) : QueueSound (insertInbound r q) next := by
  obtain ⟨-, sorted, numbers, lt⟩ := h
  refine ⟨by rw [insertInbound_length]; exact room, insertInbound_sorted sorted own, ?_, fun x mem => ?_⟩
  · refine ((insertInbound_perm r q).map _).nodup_iff.2 (List.nodup_cons.2 ⟨fun mem => ?_, numbers⟩)
    obtain ⟨x, mem, same⟩ := List.mem_map.1 mem
    exact own x mem same
  · rcases mem_insertInbound.1 mem with rfl | mem
    · exact below
    · exact lt_of_lt_of_le (lt x mem) le

/-- A ticket not held is put in the queue. -/
theorem copies_insert {s t : State} {r : InRecord} {q : List InRecord} (inbound : t.work.inbound = insertInbound r q)
    (slots : t.work.slots = s.work.slots) (queued : (q.map InRecord.ticket).Nodup)
    (sub : ∀ x ∈ q, x ∈ s.work.inbound) (fresh : ∀ x ∈ q, x.ticket ≠ r.ticket)
    (apart : ∀ i e, s.work.slots.get i = some e → r.ticket ≠ e.ticket) (nodup : s.copies.Nodup) : t.copies.Nodup := by
  obtain ⟨-, slotsApart, disjoint⟩ := copies_nodup_iff.1 nodup
  rw [copies_nodup_iff, inbound, slots]
  refine ⟨?_, slotsApart, fun x mem i e at_i => ?_⟩
  · refine ((insertInbound_perm r q).map _).nodup_iff.2 (List.nodup_cons.2 ⟨fun mem => ?_, queued⟩)
    obtain ⟨x, mem, same⟩ := List.mem_map.1 mem
    exact fresh x mem same
  · rcases mem_insertInbound.1 mem with rfl | mem
    · exact apart i e at_i
    · exact disjoint x (sub x mem) i e at_i

theorem commitNew_workSound {o : OfferFields} {s : State} (h : s.WorkSound) (none : s.claim.offerInHand = none)
    (room : s.work.inbound.length < 24) (unheld : (o.sender, o.tag) ∉ s.copies) : (commitNew o s).WorkSound := by
  obtain ⟨queue, nodup, -⟩ := workSound_iff.1 h
  have fresh (c : StationNumber × Tag) (held : c ∈ s.copies) : (o.sender, o.tag) ≠ c := fun eq => unheld (eq ▸ held)
  refine workSound_iff.2 ⟨?_, ?_, handSound_of_none none⟩
  · exact queue.insert room (fun x mem => ne_of_lt (queue.2.2.2 x mem)) (Nat.le_succ _) (Nat.lt_succ_self _)
  · refine copies_insert (s := s) (q := s.work.inbound) rfl rfl (copies_nodup_iff.1 nodup).1 (fun _ => id)
      (fun x mem => (fresh _ (mem_copies.2 (.inl ⟨x, mem, rfl⟩))).symm)
      (fun i e at_i => fresh _ (mem_copies.2 (.inr ⟨i, e, at_i, rfl⟩))) nodup

theorem commitUpgrade_workSound {o : OfferFields} {s : State} (h : s.WorkSound) (none : s.claim.offerInHand = none) :
    (commitUpgrade o s).WorkSound := by
  unfold commitUpgrade
  split
  case h_2 => exact h
  case h_1 r held =>
    split
    case isFalse => exact h
    case isTrue waiting =>
      obtain ⟨mem, sender, tag⟩ := inboundCopy_some held
      obtain ⟨queue, nodup, -⟩ := workSound_iff.1 h
      have sub : (s.work.inbound.filter fun x => !isCopy o.sender o.tag x).Sublist s.work.inbound := List.filter_sublist
      have others {x : InRecord} (left : x ∈ s.work.inbound.filter fun x => !isCopy o.sender o.tag x) :
          x ∈ s.work.inbound ∧ x.ticket ≠ r.ticket := by
        obtain ⟨mem, other⟩ := List.mem_filter.1 left
        refine ⟨mem, fun same => ?_⟩
        rw [← sender, ← tag, isCopy_ticket.2 same] at other
        cases other
      have gone : (s.work.inbound.filter fun x => !isCopy o.sender o.tag x).length < s.work.inbound.length := by
        refine List.length_filter_lt_length_iff_exists.2 ⟨r, mem, ?_⟩
        simp [isCopy_iff.2 ⟨sender, tag⟩]
      obtain ⟨inbound, -, disjoint⟩ := copies_nodup_iff.1 nodup
      refine workSound_iff.2 ⟨?_, ?_, handSound_of_none none⟩
      · refine (queue.shrink (sub.map _)).insert (lt_of_lt_of_le gone queue.1) (fun x left same => ?_) (le_refl _)
          (queue.2.2.2 r mem)
        obtain ⟨mem', other⟩ := others left
        exact other (congrArg InRecord.ticket (List.inj_on_of_nodup_map queue.2.2.1 mem' mem same))
      · exact copies_insert (s := s) rfl rfl ((sub.map _).nodup inbound) (fun x left => (others left).1)
          (fun x left => (others left).2) (fun i e at_i => disjoint r mem i e at_i) nodup

theorem claimRead_workSound (bid : BitVec 6) (claimant : StationNumber) (confirm : Bool) {s : State} (h : s.WorkSound) :
    (claimRead bid claimant confirm s).WorkSound := by
  obtain ⟨queue, nodup, room⟩ := workSound_iff.1 h
  unfold claimRead
  split
  case h_1 => exact h
  case h_2 hand held =>
    have ended (u : State) (work : u.work = s.work) (counter : u.claim.claimCounter = s.claim.claimCounter)
        (none : u.claim.offerInHand = none) : u.WorkSound := by
      refine h.shrinkSlots (by rw [work]) (fun i e at_i => ⟨e, work ▸ at_i, rfl⟩) counter fun x held => ?_
      rw [none] at held
      cases held
    simp only
    split
    · split
      · rename_i wins
        obtain ⟨⟨-, bids⟩, -⟩ : (hand.inClaim = true ∧ hand.bid = some bid) ∧ claimant = s.control.number := by
          simpa [winsClaim] using wins
        unfold commitClaim
        split
        · split
          · exact commitUpgrade_workSound (ended _ rfl rfl rfl) rfl
          · rename_i new
            obtain ⟨free, unheld⟩ := room hand held (by simp [bids]) (by simpa using new)
            exact commitNew_workSound (ended _ rfl rfl rfl) rfl free unheld
        · exact ended _ rfl rfl rfl
      · exact ended _ rfl rfl rfl
    · exact ended _ rfl rfl rfl

/-! ### Every step -/

theorem Change.workSound {s t : State} (change : Change s t) (h : s.WorkSound) : t.WorkSound := by
  cases change with
  | ticket step => exact step.workSound h
  | elsewhere same =>
    exact h.shrinkSlots (by rw [same.inbound]) (fun i e at_i => ⟨e, same.slots ▸ at_i, rfl⟩) same.claimCounter same.hand
  | tick => exact h
  | entries => exact h
  | configure => exact h
  | lock =>
    exact h.shrinkSlots (.refl _) (fun i e at_i => ⟨e, at_i, rfl⟩) rfl fun _ held => nomatch held
  | empty empty =>
    refine workSound_iff.2 ⟨?_, ?_, handSound_of_none empty.hand⟩
    · rw [empty.inbound]
      exact ⟨Nat.zero_le _, .nil, List.nodup_nil, nofun⟩
    · rw [copies_nodup_iff, empty.inbound]
      refine ⟨List.nodup_nil, fun i j e e' at_i => ?_, nofun⟩
      rw [empty.slots] at at_i
      cases at_i
  | dropReport => exact h
  | use => exact h
  | forget => exact h
  | take mem free => exact take_workSound mem free h
  | dispose held state => exact setSlot_state_workSound held state h
  | turn => exact returnWaiting_workSound h
  | decide o => exact decide_workSound o h
  | claim bid claimant confirm => exact claimRead_workSound bid claimant confirm h

/-- Settles O56: a step is a chain of changes, and each change keeps the work unit sound. -/
theorem workStaysSound : Obligations.WorkStaysSound :=
  fun _ _ sound step => step_keeps Change.workSound (fun _ work => work) (fun straps s => (release_sound straps s).2.1) step sound

end Sys2Proof.Machine
end

section
/-! PROOFS. Entries and records (R12, R64, R67, R73, R108): a LIVE entry and its record belong together, level entries latch no
edge, masked entries hold none, and records keep within their class's limits. Each change keeps it. -/

namespace Sys2Proof.Machine

/-! ### The lock -/

/-- The record is locked, and valid, exactly in the started states (R46, R47). -/
def LockSound (s : State) : Prop :=
  (s.control.locked = true ↔ s.control.state.started = true) ∧ (s.control.locked = true → s.control.config.valid = true)

theorem State.ControlSound.lock {s : State} (h : s.ControlSound) : LockSound s := by
  obtain ⟨-, locked, valid, -⟩ := h
  exact ⟨locked.trans started_iff.symm, valid⟩

theorem LockSound.of_eq {s t : State} (h : LockSound s) (locked : t.control.locked = s.control.locked)
    (started : t.control.state.started = s.control.state.started) (config : t.control.config = s.control.config) :
    LockSound t := by
  unfold LockSound
  rwa [locked, started, config]

theorem TicketStep.control {s t : State} (step : TicketStep s t) : t.control = s.control := step.onlyTickets.control

theorem Change.lockSound {s t : State} (change : Change s t) (h : LockSound s) : LockSound t := by
  have same {u : State} (control : u.control = s.control) : LockSound u :=
    h.of_eq (by rw [control]) (by rw [control]) (by rw [control])
  cases change with
  | ticket step => exact same step.control
  | elsewhere same => exact h.of_eq same.locked same.started same.config
  | tick => exact h.of_eq rfl rfl rfl
  | configure unlocked =>
    obtain ⟨iff, -⟩ := h
    exact ⟨iff, fun locked => (nomatch unlocked.symm.trans locked)⟩
  | lock unstarted valid => exact ⟨⟨fun _ => rfl, fun _ => rfl⟩, fun _ => valid⟩
  | empty empty =>
    exact h.of_eq empty.locked empty.started empty.config
  | take => exact same rfl
  | dispose => exact same rfl
  | claim bid claimant confirm =>
    obtain ⟨-, -, -, -, control⟩ := claimRead_lists bid claimant confirm s
    exact h.of_eq (by rw [control]) (by rw [control]) (by rw [control])
  | _ => exact same rfl

theorem started_of_creates {st : StationState} (h : st.creates = true) : st.started = true := by
  cases st <;> first | rfl | cases h

theorem LockSound.locked_of_creates {s : State} (h : LockSound s) (creates : s.control.state.creates = true) :
    s.control.locked = true := h.1.2 (started_of_creates creates)

/-- Every class of a valid record allows an attempt (R8). -/
theorem LockSound.attemptLimit {s : State} (h : LockSound s) (locked : s.control.locked = true) (n : TicketClass) :
    1 ≤ (classOf s n).attemptLimit := by
  have valid := h.2 locked
  simp only [Configuration.valid, Bool.and_eq_true, List.all_eq_true] at valid
  obtain ⟨⟨classes, -⟩, -⟩ := valid
  have entry := classes (classOf s n) (vector_mem_toList.2 ⟨n.toFin, rfl⟩)
  simp only [ClassEntry.valid, decide_eq_true_eq] at entry
  obtain ⟨-, -, some, -⟩ := entry
  exact some

/-! ### The state of an entry -/

/-- The state of an entry whose record has left the list (R67, R70). -/
def EntryState.released : EntryState → EntryState
  | .quiet => .quiet
  | .latched => .latched
  | .live _ true => .latched
  | .live _ false => .quiet

theorem entryAt_leaveList_state (r : OutRecord) (s : State) (k : Line) : (entryAt (leaveList r s) k).state =
    if r.source = .line k then (entryAt s k).state.released else (entryAt s k).state := by
  split
  case isFalse other => exact congrArg SourceEntry.state (entryAt_releaseSource other _)
  case isTrue own =>
    unfold leaveList releaseSource
    rw [own]
    change (entryAt (match (entryAt s k).state with
      | .live _ true => _
      | .live _ false => _
      | .quiet => _
      | .latched => _) k).state = _
    cases st : (entryAt s k).state with
    | quiet => exact st
    | latched => exact st
    | live tag latched => cases latched <;> simp [EntryState.released]

theorem entryAt_numberDrawn_state (r : OutRecord) (res : Resolution) (s : State) (k : Line) :
    (entryAt (numberDrawn r res s) k).state = (entryAt s k).state := by
  unfold numberDrawn holdSource
  split
  · split
    · rfl
    · split
      · rename_i l _
        rw [entryAt_setEntry]
        split
        case isTrue own => subst own; rfl
        case isFalse => rfl
      · rfl
  · rfl

/-- Steps 1 to 4 of R93, by what they do: the record leaves the list, or waits RESOLVED. -/
theorem fixResolution_cases (r : OutRecord) (res : Resolution) (s : State) :
    (leavesAtOnce r s = true ∧ (fixResolution r res s).offer.records = dropRecord r.tag s.offer.records ∧
      ∀ k, (entryAt (fixResolution r res s) k).state =
        if r.source = .line k then (entryAt s k).state.released else (entryAt s k).state) ∨
    (leavesAtOnce r s = false ∧ (fixResolution r res s).offer.records = (s.offer.records.map fun x =>
        if x.tag == r.tag then { r with state := .resolved res s.reports.resolutionCounter } else x) ∧
      ∀ k, (entryAt (fixResolution r res s) k).state = (entryAt s k).state) := by
  rw [fixResolution_eq]
  unfold leavesAtOnce
  split
  case isTrue reported =>
    split
    case isTrue room =>
      refine .inl ⟨by simp [room], by simp, fun k => ?_⟩
      refine (entryAt_leaveList_state r _ k).trans ?_
      rw [show (entryAt (pushReport (recordReport r res) (numberDrawn r res s)) k).state = (entryAt s k).state from
        entryAt_numberDrawn_state r res s k]
    case isFalse full =>
      exact .inr ⟨by simp [reported, full], by simp, entryAt_numberDrawn_state r res s⟩
  case isFalse silent =>
    refine .inl ⟨by simp [silent], by simp, fun k => ?_⟩
    rw [entryAt_leaveList_state, entryAt_numberDrawn_state]

/-! ### The law in parts -/

/-- A LIVE entry's record is in the list, and a line's record in the list is its entry's (R67). -/
def Paired (s : State) : Prop :=
  (∀ l tag latched, (entryAt s l).state = .live tag latched → ∃ r ∈ s.offer.records, r.tag = tag ∧ r.source = .line l) ∧
    ∀ r ∈ s.offer.records, ∀ l, r.source = .line l → ∃ latched, (entryAt s l).state = .live r.tag latched

def LimitsSound (s : State) : Prop := ∀ r ∈ s.offer.records, r.Within (classOf s r.cls)

theorem ticketsSound_iff {s : State} : s.TicketsSound ↔ s.EntriesSound ∧ Paired s ∧
    (s.offer.records ≠ [] → s.control.locked = true) ∧ LimitsSound s := by
  unfold State.TicketsSound Paired LimitsSound
  rw [and_assoc]
  rfl

/-- The lock, the list and the tickets together. -/
structure TicketLaw (s : State) : Prop where
  lock : LockSound s
  tags : TagsSound s.offer.records
  entries : s.EntriesSound
  paired : Paired s
  locked : s.offer.records ≠ [] → s.control.locked = true
  limits : LimitsSound s

/-- The entries' states are those of `s`, each record of `t` is one of `s` in another state, and the list has kept them all. -/
theorem Paired.revised {s t : State} (h : Paired s) (states : ∀ l, (entryAt t l).state = (entryAt s l).state)
    (f : OutRecord → OutRecord) (records : t.offer.records = s.offer.records.map f)
    (same : ∀ x ∈ s.offer.records, (f x).tag = x.tag ∧ (f x).source = x.source) : Paired t := by
  obtain ⟨live, own⟩ := h
  constructor
  · intro l tag latched at_l
    obtain ⟨r, mem, hasTag, source⟩ := live l tag latched (states l ▸ at_l)
    obtain ⟨tagSame, sourceSame⟩ := same r mem
    exact ⟨f r, records ▸ List.mem_map_of_mem mem, tagSame.trans hasTag, sourceSame.trans source⟩
  · intro r mem l source
    obtain ⟨x, old, rfl⟩ := List.mem_map.1 (records ▸ mem)
    obtain ⟨tagSame, sourceSame⟩ := same x old
    rw [states, tagSame]
    exact own x old l (sourceSame ▸ source)

/-- An entry that is not LIVE has no record in the list. -/
theorem Paired.no_record {s : State} (h : Paired s) {l : Line} (idle : ∀ tag latched, (entryAt s l).state ≠ .live tag latched) :
    ∀ r ∈ s.offer.records, r.source ≠ .line l := by
  intro r mem source
  obtain ⟨latched, live⟩ := h.2 r mem l source
  exact idle _ _ live

theorem EntryState.released_eq_live {st : EntryState} {tag : Tag} {latched : Bool} : st.released ≠ .live tag latched := by
  cases st with
  | quiet => nofun
  | latched => nofun
  | live tag latched => cases latched <;> nofun

theorem Paired.left {s t : State} (h : Paired s) (nodup : (s.offer.records.map (·.tag)).Nodup) {x : OutRecord}
    (mem : x ∈ s.offer.records) (records : t.offer.records = dropRecord x.tag s.offer.records)
    (states : ∀ k, (entryAt t k).state = if x.source = .line k then (entryAt s k).state.released else (entryAt s k).state) :
    Paired t := by
  obtain ⟨live, own⟩ := h
  constructor
  · intro l tag latched at_l
    rw [states] at at_l
    split at at_l
    case isTrue => exact absurd at_l EntryState.released_eq_live
    case isFalse other =>
      obtain ⟨r, mem', hasTag, source⟩ := live l tag latched at_l
      refine ⟨r, records ▸ mem_dropRecord.2 ⟨mem', fun same => ?_⟩, hasTag, source⟩
      rw [tag_inj nodup mem' mem same] at source
      exact other source
  · intro r mem' l source
    obtain ⟨mem', other⟩ := mem_dropRecord.1 (records ▸ mem')
    obtain ⟨latched, at_l⟩ := own r mem' l source
    refine ⟨latched, ?_⟩
    rw [states, if_neg]
    · exact at_l
    · intro source'
      obtain ⟨latched', at_l'⟩ := own x mem l source'
      exact other (EntryState.live.inj (at_l.symm.trans at_l')).1

/-- A record of no entry is put at the end. -/
theorem Paired.appendSoft {s t : State} (h : Paired s) {r : OutRecord} (soft : r.source = .soft)
    (records : t.offer.records = s.offer.records ++ [r]) (states : ∀ k, (entryAt t k).state = (entryAt s k).state) :
    Paired t := by
  obtain ⟨live, own⟩ := h
  constructor
  · intro l tag latched at_l
    obtain ⟨x, mem, hasTag, source⟩ := live l tag latched (states l ▸ at_l)
    exact ⟨x, records ▸ List.mem_append_left _ mem, hasTag, source⟩
  · intro x mem l source
    rw [states]
    rcases List.mem_append.1 (records ▸ mem) with mem | new
    · exact own x mem l source
    · rw [List.mem_singleton.1 new, soft] at source
      cases source

/-- The record of an entry that had none is put at the end, and the entry is LIVE with it. -/
theorem Paired.appendLine {s t : State} (h : Paired s) {r : OutRecord} {l : Line} (source : r.source = .line l)
    (idle : ∀ tag latched, (entryAt s l).state ≠ .live tag latched) (records : t.offer.records = s.offer.records ++ [r])
    (states : ∀ k, (entryAt t k).state = if l = k then .live r.tag false else (entryAt s k).state) : Paired t := by
  have none := h.no_record idle
  obtain ⟨live, own⟩ := h
  constructor
  · intro k tag latched at_k
    rw [states] at at_k
    split at at_k
    case isTrue same =>
      cases at_k
      exact ⟨r, records ▸ List.mem_append_right _ List.mem_cons_self, rfl, same ▸ source⟩
    case isFalse =>
      obtain ⟨x, mem, hasTag, source⟩ := live k tag latched at_k
      exact ⟨x, records ▸ List.mem_append_left _ mem, hasTag, source⟩
  · intro x mem k source'
    rw [states]
    rcases List.mem_append.1 (records ▸ mem) with mem | new
    · rw [if_neg]
      · exact own x mem k source'
      · rintro rfl
        exact none x mem source'
    · rw [List.mem_singleton.1 new] at source' ⊢
      cases source.symm.trans source'
      exact ⟨false, if_pos rfl⟩

/-! ### A record put and a record resolved -/

theorem LimitsSound.put {s t : State} (h : LimitsSound s) {r : OutRecord} (control : t.control = s.control)
    (records : t.offer.records = s.offer.records.map fun x => if x.tag == r.tag then r else x)
    (within : r.Within (classOf s r.cls)) : LimitsSound t := by
  intro x mem
  unfold classOf
  rw [control]
  obtain ⟨y, old, rfl⟩ := List.mem_map.1 (records ▸ mem)
  split
  · exact within
  · exact h y old

theorem LimitsSound.subset {s t : State} (h : LimitsSound s) (control : t.control = s.control)
    (records : t.offer.records ⊆ s.offer.records) : LimitsSound t := by
  intro x mem
  unfold classOf
  rw [control]
  exact h x (records mem)

theorem EntriesSound.of_states {s t : State} (h : s.EntriesSound) (control : t.control = s.control)
    (states : ∀ k, (entryAt t k).state = (entryAt s k).state ∨ (entryAt t k).state = (entryAt s k).state.released) :
    t.EntriesSound := by
  obtain ⟨unlocked, level⟩ := h
  constructor
  · intro open' k
    have quiet := unlocked (control ▸ open') k
    rcases states k with same | released
    · rw [same, quiet]
    · rw [released, quiet]; rfl
  · intro k isLevel'
    rw [isLevel_congr control] at isLevel'
    obtain ⟨unlatched, noEdge⟩ := level k isLevel'
    rcases states k with same | released
    · rw [same]; exact ⟨unlatched, noEdge⟩
    · rw [released]
      refine ⟨?_, fun _ => EntryState.released_eq_live⟩
      cases st : (entryAt s k).state with
      | quiet => nofun
      | latched => exact absurd st unlatched
      | live tag latched =>
        cases latched with
        | false => nofun
        | true => exact absurd st (noEdge tag)

theorem revises_same {s : State} {r x : OutRecord} (rev : Revises s r x) (nodup : (s.offer.records.map (·.tag)).Nodup)
    {y : OutRecord} (mem : y ∈ s.offer.records) (state : OutRecord → OutRecord)
    (tag : (state r).tag = r.tag) (source : (state r).source = r.source) :
    (if y.tag == r.tag then state r else y).tag = y.tag ∧ (if y.tag == r.tag then state r else y).source = y.source := by
  split
  case isTrue same =>
    have : y = x := tag_inj nodup mem rev.mem ((beq_iff_eq.1 same).trans rev.tag)
    subst this
    exact ⟨tag.trans rev.tag, source.trans rev.source⟩
  case isFalse => exact ⟨rfl, rfl⟩

theorem ne_nil_of_map {f : OutRecord → OutRecord} {records records' : List OutRecord} (eq : records' = records.map f)
    (some : records' ≠ []) : records ≠ [] := by
  rintro rfl
  exact some eq

theorem TicketLaw.put {s : State} (h : TicketLaw s) {r x : OutRecord} (rev : Revises s r x)
    (limits : 1 ≤ (classOf s r.cls).attemptLimit → x.Within (classOf s r.cls) → r.Within (classOf s r.cls)) :
    TicketLaw (putRecord r s) where
  lock := h.lock
  tags := h.tags.put r
  entries := h.entries
  paired := h.paired.revised (fun _ => rfl) _ rfl fun y mem => revises_same rev h.tags.2 mem id rfl rfl
  locked some := h.locked (ne_nil_of_map rfl some)
  limits := by
    refine h.limits.put rfl rfl (limits ?_ (rev.cls ▸ h.limits x rev.mem))
    exact h.lock.attemptLimit (h.locked (List.ne_nil_of_mem rev.mem)) _

theorem TicketLaw.fix {s : State} (h : TicketLaw s) {r x : OutRecord} (res : Resolution) (rev : Revises s r x)
    (limits : x.Within (classOf s r.cls) →
      r.generation.toNat ≤ (classOf s r.cls).reofferLimit ∧ r.attempts ≤ (classOf s r.cls).attemptLimit) :
    TicketLaw (fixResolution r res s) := by
  have control := (onlyTickets_fixResolution r res s).control
  have lock : LockSound (fixResolution r res s) := h.lock.of_eq (by rw [control]) (by rw [control]) (by rw [control])
  have locked := h.locked (List.ne_nil_of_mem rev.mem)
  rcases fixResolution_cases r res s with ⟨-, records, states⟩ | ⟨-, records, states⟩
  · exact {
      lock := lock
      tags := records ▸ h.tags.drop r.tag
      entries := EntriesSound.of_states h.entries control fun k => by
        rw [states]
        split
        · exact .inr rfl
        · exact .inl rfl
      paired := h.paired.left h.tags.2 rev.mem (rev.tag ▸ records) fun k => by rw [states, rev.source]
      locked := fun _ => by rw [control]; exact locked
      limits := h.limits.subset control fun y mem => (mem_dropRecord.1 (records ▸ mem)).1 }
  · exact {
      lock := lock
      tags := records ▸ h.tags.put { r with state := .resolved res s.reports.resolutionCounter }
      entries := EntriesSound.of_states h.entries control fun k => .inl (states k)
      paired := h.paired.revised states _ records fun y mem => revises_same rev h.tags.2 mem
        (fun r => { r with state := .resolved res s.reports.resolutionCounter }) rfl rfl
      locked := fun _ => by rw [control]; exact locked
      limits := by
        obtain ⟨reoffers, used⟩ := limits (rev.cls ▸ h.limits x rev.mem)
        exact h.limits.put (r := { r with state := .resolved res s.reports.resolutionCounter }) control records
          ⟨reoffers, used, nofun⟩ }

/-! ### A record made -/

theorem within_newRecord {s : State} (h : LockSound s) (creates : s.control.state.creates = true) (f : TicketFields) :
    (newRecord f s).Within (classOf s (newRecord f s).cls) :=
  ⟨Nat.zero_le _, Nat.zero_le _, fun _ => h.attemptLimit (h.locked_of_creates creates) _⟩

theorem LimitsSound.append {s t : State} (h : LimitsSound s) {r : OutRecord} (control : t.control = s.control)
    (records : t.offer.records = s.offer.records ++ [r]) (within : r.Within (classOf s r.cls)) : LimitsSound t := by
  intro x mem
  unfold classOf
  rw [control]
  rcases List.mem_append.1 (records ▸ mem) with mem | new
  · exact h x mem
  · rw [List.mem_singleton.1 new]; exact within

/-- A creation is its record placed, and that record resolved where the NO-PEER test fails. -/
theorem TicketLaw.create {f : TicketFields} {s : State} (placed : TicketLaw (placeRecord (newRecord f s) s)) :
    TicketLaw (createRecord f s) := by
  unfold createRecord
  simp only
  split
  · exact placed
  · exact placed.fix .noPeer (.refl (List.mem_append_right _ List.mem_cons_self)) fun ⟨reoffers, used, _⟩ => ⟨reoffers, used⟩

theorem TicketLaw.createSoft {f : TicketFields} {s : State} (h : TicketLaw s) (soft : f.source = .soft)
    (creates : s.control.state.creates = true) (room : s.offer.records.length < 32) : TicketLaw (createRecord f s) :=
  .create {
    lock := h.lock
    tags := h.tags.append room (nextTag_firstFree room).1
    entries := h.entries
    paired := h.paired.appendSoft (r := newRecord f s) soft rfl fun _ => rfl
    locked := fun _ => h.lock.locked_of_creates creates
    limits := h.limits.append rfl rfl (within_newRecord h.lock creates f) }

theorem TicketLaw.makeLine {l : Line} {s : State} (h : TicketLaw s)
    (idle : ∀ tag latched, (entryAt s l).state ≠ .live tag latched) (creates : s.control.state.creates = true)
    (room : s.offer.records.length < 32) : TicketLaw (makeSourceRecord l s) := by
  have locked := h.lock.locked_of_creates creates
  have states (k : Line) : (entryAt (setEntry l { entryAt s l with state := .live (nextTag s) false } s) k).state =
      if l = k then .live (nextTag s) false else (entryAt s k).state := by
    rw [entryAt_setEntry]
    split <;> rfl
  refine .create (s := setEntry l { entryAt s l with state := .live (nextTag s) false } s) {
    lock := h.lock
    tags := h.tags.append room (nextTag_firstFree room).1
    entries := ⟨fun unlocked => (nomatch unlocked.symm.trans locked), fun k level => ?_⟩
    paired := h.paired.appendLine (r := newRecord (sourceFields s l) s) rfl idle rfl states
    locked := fun _ => locked
    limits := h.limits.append rfl rfl (within_newRecord h.lock creates (sourceFields s l)) }
  have state : (entryAt (placeRecord (newRecord (sourceFields s l) s)
      (setEntry l { entryAt s l with state := .live (nextTag s) false } s)) k).state = _ := states k
  change (entryAt (placeRecord (newRecord (sourceFields s l) s)
      (setEntry l { entryAt s l with state := .live (nextTag s) false } s)) k).state ≠ _ ∧ ∀ tag,
      (entryAt (placeRecord (newRecord (sourceFields s l) s)
      (setEntry l { entryAt s l with state := .live (nextTag s) false } s)) k).state ≠ _
  rw [state]
  split
  · exact ⟨nofun, by simp⟩
  · exact h.entries.2 k level

theorem TicketStep.ticketLaw {s t : State} (step : TicketStep s t) (h : TicketLaw s) : TicketLaw t := by
  have of_parts {u : State} (control : u.control = s.control) (sources : u.sources = s.sources)
      (records : u.offer.records = s.offer.records) : TicketLaw u := by
    have states (k : Line) : entryAt u k = entryAt s k := by unfold entryAt; rw [sources]
    exact {
      lock := h.lock.of_eq (by rw [control]) (by rw [control]) (by rw [control])
      tags := records ▸ h.tags
      entries := EntriesSound.of_states h.entries control fun k => .inl (by rw [states])
      paired := h.paired.revised (fun k => by rw [states]) id (by simpa using records) fun _ _ => ⟨rfl, rfl⟩
      locked := fun some => by rw [control]; exact h.locked (records ▸ some)
      limits := h.limits.subset control fun x mem => records ▸ mem }
  cases step with
  | put rev limits => exact h.put rev limits
  | fix res rev limits => exact h.fix res rev limits
  | make l idle creates room => exact h.makeLine idle creates room
  | create f soft creates room => exact h.createSoft soft creates room
  | @leave r res mem room =>
    have control := (onlyTickets_leaveList r (pushReport (recordReport r res) s)).control
    have states := entryAt_leaveList_state r (pushReport (recordReport r res) s)
    have records := leaveList_records r (pushReport (recordReport r res) s)
    exact {
      lock := h.lock.of_eq (by rw [control]; rfl) (by rw [control]; rfl) (by rw [control]; rfl)
      tags := records ▸ h.tags.drop r.tag
      entries := EntriesSound.of_states h.entries control fun k => by
        rw [states]
        split
        · exact .inr rfl
        · exact .inl rfl
      paired := h.paired.left h.tags.2 mem records states
      locked := fun _ => by rw [control]; exact h.locked (List.ne_nil_of_mem mem)
      limits := h.limits.subset control fun y mem => (mem_dropRecord.1 (records ▸ mem)).1 }
  | reportCopy => exact of_parts rfl rfl rfl
  | count => exact of_parts rfl rfl rfl
  | freeCopy ref => rw [freeCopy_eq]; exact of_parts rfl rfl rfl
  | writeNotice n => rw [writeNotice_eq]; exact of_parts rfl rfl rfl

/-! ### Every step -/

/-- What may happen to an entry outside the making and the end of its record keeps the laws of entries. -/
theorem EntriesSound.change {s : State} {sources : Vector SourceEntry 8} (h : s.EntriesSound) (lock : LockSound s)
    (change : ∀ l, EntryChange s l (sources.get l)) : ({ s with sources := sources } : State).EntriesSound := by
  obtain ⟨unlocked, level⟩ := h
  constructor
  · intro open' k
    change (sources.get k).state = .quiet
    have quiet := unlocked open' k
    rcases (change k).state with same | ⟨now, -⟩ | ⟨_, _, -, live⟩ | ⟨-, -, -, creates⟩ | ⟨_, _, -, live, -⟩
    · rw [same, quiet]
    · exact now
    · rw [quiet] at live; cases live
    · exact nomatch (open' : s.control.locked = false).symm.trans (lock.locked_of_creates creates)
    · rw [quiet] at live; cases live
  · intro k levelled
    change (sources.get k).state ≠ .latched ∧ ∀ tag, (sources.get k).state ≠ .live tag true
    have isLevel : isLevel s k = true := levelled
    rcases (change k).state with same | ⟨now, -⟩ | ⟨_, _, now, -⟩ | ⟨-, -, edge, -⟩ | ⟨_, _, -, -, edge⟩
    · rw [same]; exact level k isLevel
    · rw [now]; exact ⟨nofun, nofun⟩
    · rw [now]; exact ⟨nofun, by simp⟩
    · exact nomatch edge.symm.trans isLevel
    · exact nomatch edge.symm.trans isLevel

theorem Paired.change {s : State} {sources : Vector SourceEntry 8} (h : Paired s)
    (change : ∀ l, EntryChange s l (sources.get l)) : Paired { s with sources := sources } := by
  obtain ⟨live, own⟩ := h
  constructor
  · intro l tag latched at_l
    rcases (change l).state with same | ⟨now, -⟩ | ⟨_, _, now, before⟩ | ⟨now, -⟩ | ⟨_, _, now, before, -⟩
    · exact live l tag latched (same ▸ at_l)
    · cases now.symm.trans at_l
    · cases now.symm.trans at_l; exact live l _ _ before
    · cases now.symm.trans at_l
    · cases now.symm.trans at_l; exact live l _ _ before
  · intro r mem l source
    obtain ⟨latched, before⟩ := own r mem l source
    change ∃ latched, (sources.get l).state = .live r.tag latched
    rcases (change l).state with same | ⟨-, was⟩ | ⟨_, _, now, was⟩ | ⟨-, was, -⟩ | ⟨_, _, now, was, -⟩
    · exact ⟨latched, same.trans before⟩
    · cases was.symm.trans before
    · cases was.symm.trans before; exact ⟨_, now⟩
    · cases was.symm.trans before
    · cases was.symm.trans before; exact ⟨_, now⟩

/-- Before the lock no record is in the list and every entry is QUIET, whatever the configuration. -/
theorem TicketLaw.unlocked {s t : State} (h : TicketLaw s) (unlocked : s.control.locked = false) (lock : LockSound t)
    (records : t.offer.records = s.offer.records) (states : ∀ k, (entryAt t k).state = (entryAt s k).state) :
    TicketLaw t := by
  have none : t.offer.records = [] := by
    rw [records]
    by_contra some
    exact nomatch unlocked.symm.trans (h.locked some)
  have quiet (k : Line) : (entryAt t k).state = .quiet := (states k).trans (h.entries.1 unlocked k)
  exact {
    lock := lock
    tags := records ▸ h.tags
    entries := ⟨fun _ => quiet, fun k _ => by rw [quiet]; exact ⟨nofun, nofun⟩⟩
    paired := by
      unfold Paired
      rw [none]
      exact ⟨fun l tag latched live => absurd ((quiet l).symm.trans live) nofun, nofun⟩
    locked := fun some => absurd none some
    limits := by
      unfold LimitsSound
      rw [none]
      exact nofun }

theorem tickState_inPlay (st : RecordState) : (tickState st).inPlay = st.inPlay := by
  unfold tickState
  split <;> rfl

theorem entryAt_applyStartMasked (s : State) (k : Line) : entryAt (applyStartMasked s) k =
    { entryAt s k with masked := (s.control.config.sourceConfig k).startMasked } := vector_get_ofFn _ k

theorem entryAt_firstJoin_state (s : State) (k : Line) :
    (entryAt (enterJoining false (applyStartMasked { s with control.locked := true })) k).state = (entryAt s k).state := by
  have masked := congrArg SourceEntry.state (entryAt_applyStartMasked { s with control.locked := true } k)
  exact masked

theorem Change.ticketLaw {s t : State} (change : Change s t) (h : TicketLaw s) : TicketLaw t := by
  have lock := change.lockSound h.lock
  have of_parts {u : State} (lock : LockSound u) (config : u.control.config = s.control.config)
      (locked : u.control.locked = s.control.locked) (sources : u.sources = s.sources)
      (records : u.offer.records = s.offer.records) : TicketLaw u := by
    have states (k : Line) : entryAt u k = entryAt s k := by unfold entryAt; rw [sources]
    have level (k : Line) : isLevel u k = isLevel s k := by unfold isLevel; rw [config]
    refine {
      lock := lock
      tags := records ▸ h.tags
      entries := ⟨fun open' k => ?_, fun k levelled => ?_⟩
      paired := h.paired.revised (fun k => by rw [states]) id (by simpa using records) fun _ _ => ⟨rfl, rfl⟩
      locked := fun some => by rw [locked]; exact h.locked (records ▸ some)
      limits := fun x mem => by unfold classOf; rw [config]; exact h.limits x (records ▸ mem) }
    · rw [states]; exact h.entries.1 (locked ▸ open') k
    · rw [states]; exact h.entries.2 k (level k ▸ levelled)
  cases change with
  | ticket step => exact step.ticketLaw h
  | elsewhere same => exact of_parts lock same.config same.locked same.sources same.records
  | tick => exact {
      lock := lock
      tags := by
        unfold TagsSound
        rw [tick_tags]
        exact ⟨by simpa [Machine.tick] using h.tags.1, h.tags.2⟩
      entries := h.entries
      paired := h.paired.revised (fun _ => rfl) _ rfl fun _ _ => ⟨rfl, rfl⟩
      locked := fun some => h.locked (ne_nil_of_map rfl some)
      limits := fun x mem => by
        obtain ⟨y, old, rfl⟩ := List.mem_map.1 mem
        exact OutRecord.Within.of_eq (x := y) (r := { y with state := tickState y.state }) rfl rfl 
          (fun play => (tickState_inPlay y.state).symm.trans play) (h.limits y old) }
  | entries changed => exact {
      lock := lock
      tags := h.tags
      entries := EntriesSound.change h.entries h.lock changed
      paired := h.paired.change changed
      locked := h.locked
      limits := h.limits }
  | configure unlocked => exact h.unlocked unlocked lock rfl fun _ => rfl
  | lock unstarted =>
    have unlocked : s.control.locked = false := by
      by_contra locked
      exact nomatch unstarted.symm.trans (h.lock.1.1 (by simpa using locked))
    exact h.unlocked unlocked lock rfl (entryAt_firstJoin_state s)
  | empty empty => exact {
      lock := lock
      tags := by rw [empty.records]; exact ⟨Nat.zero_le _, List.nodup_nil⟩
      entries := ⟨fun _ => empty.quiet, fun k _ => by rw [empty.quiet]; exact ⟨nofun, nofun⟩⟩
      paired := by
        unfold Paired
        rw [empty.records]
        exact ⟨fun l tag latched live => absurd ((empty.quiet l).symm.trans live) nofun, nofun⟩
      locked := fun some => absurd empty.records some
      limits := by
        unfold LimitsSound
        rw [empty.records]
        exact nofun }
  | dropReport => exact of_parts lock rfl rfl rfl rfl
  | use => exact of_parts lock rfl rfl rfl rfl
  | forget => exact of_parts lock rfl rfl rfl rfl
  | take => exact of_parts lock rfl rfl rfl rfl
  | dispose => exact of_parts lock rfl rfl rfl rfl
  | turn => exact of_parts lock rfl rfl rfl rfl
  | decide => exact of_parts lock rfl rfl rfl rfl
  | claim bid claimant confirm =>
    obtain ⟨offer, -, -, sources, control⟩ := claimRead_lists bid claimant confirm s
    exact of_parts lock (by rw [control]) (by rw [control]) sources (by rw [offer])

theorem TicketLaw.of_sound {s : State} (lists : s.ListsSound) (control : s.ControlSound) (tickets : s.TicketsSound) :
    TicketLaw s := by
  obtain ⟨entries, paired, locked, limits⟩ := ticketsSound_iff.1 tickets
  exact ⟨control.lock, lists.tags, entries, paired, locked, limits⟩

theorem ticketLaw_release (straps : StationNumber) (s : State) : TicketLaw (release straps s) := by
  obtain ⟨lists, -, control, tickets, -⟩ := release_sound straps s
  exact .of_sound lists control tickets

/-- Settles O58: a step is a chain of changes, and each keeps the lock, the list and the tickets. -/
theorem ticketsStaySound : Obligations.TicketsStaySound := by
  intro s t lists control tickets step
  have law := step_keeps Change.ticketLaw (fun _ law => ⟨law.lock, law.tags, law.entries, law.paired, law.locked, law.limits⟩)
    ticketLaw_release step (TicketLaw.of_sound lists control tickets)
  exact ticketsSound_iff.2 ⟨law.entries, law.paired, law.locked, law.limits⟩

end Sys2Proof.Machine
end

section
/-! PROOFS. The sources (R71, R73): no masked entry holds a latched edge, which each change keeps, and no source waits beside a free
place, which each command ends with. -/

namespace Sys2Proof.Machine

/-! ### Masked entries -/

/-- No masked entry holds a latched edge (R73), and before the lock every entry is QUIET (R64). -/
def MasksSound (s : State) : Prop :=
  (∀ l, (entryAt s l).masked = true → (entryAt s l).state ≠ .latched ∧ ∀ tag, (entryAt s l).state ≠ .live tag true) ∧
    (s.control.locked = false → ∀ l, (entryAt s l).state = .quiet)

/-- The masks are those of `s`, and each entry is as it was, released, or neither latched nor with an edge latched. -/
theorem MasksSound.of_states {s t : State} (h : MasksSound s) (masks : ∀ l, (entryAt t l).masked = (entryAt s l).masked)
    (locked : t.control.locked = s.control.locked)
    (states : ∀ k, (entryAt t k).state = (entryAt s k).state ∨ (entryAt t k).state = (entryAt s k).state.released ∨
      (s.control.locked = true ∧ (entryAt t k).state ≠ .latched ∧ ∀ tag, (entryAt t k).state ≠ .live tag true)) :
    MasksSound t := by
  obtain ⟨clear, quiet⟩ := h
  constructor
  · intro k masked
    obtain ⟨unlatched, noEdge⟩ := clear k (masks k ▸ masked)
    rcases states k with same | released | ⟨-, now⟩
    · rw [same]; exact ⟨unlatched, noEdge⟩
    · rw [released]
      refine ⟨?_, fun _ => EntryState.released_eq_live⟩
      cases st : (entryAt s k).state with
      | quiet => nofun
      | latched => exact absurd st unlatched
      | live tag latched =>
        cases latched with
        | false => nofun
        | true => exact absurd st (noEdge tag)
    · exact now
  · intro unlocked k
    have was := quiet (locked ▸ unlocked) k
    rcases states k with same | released | ⟨locked', -⟩
    · rw [same, was]
    · rw [released, was]; rfl
    · rw [locked, locked'] at unlocked; cases unlocked

theorem TicketStep.masksSound {s t : State} (step : TicketStep s t) (lock : LockSound s) (h : MasksSound s) :
    MasksSound t := by
  have of_parts {u : State} (control : u.control = s.control) (sources : u.sources = s.sources) : MasksSound u := by
    have entries (k : Line) : entryAt u k = entryAt s k := by unfold entryAt; rw [sources]
    exact h.of_states (fun k => by rw [entries]) (by rw [control]) fun k => .inl (by rw [entries])
  cases step with
  | put => exact h
  | @fix x r res rev limits =>
    have only := onlyTickets_fixResolution r res s
    refine h.of_states (fun k => (only.masks k).1) (by rw [only.control]) fun k => ?_
    rcases fixResolution_cases r res s with ⟨-, -, states⟩ | ⟨-, -, states⟩
    · rw [states]
      split
      · exact .inr (.inl rfl)
      · exact .inl rfl
    · exact .inl (states k)
  | make l idle creates room =>
    have only := onlyTickets_makeSourceRecord l s
    refine h.of_states (fun k => (only.masks k).1) (by rw [only.control]) fun k => ?_
    by_cases own : l = k
    · subst own
      refine .inr (.inr ⟨lock.locked_of_creates creates, ?_⟩)
      rcases makeSourceRecord_entry l s with ⟨eq, -⟩ | ⟨-, -, now | now⟩
      · rw [eq]; exact ⟨nofun, by simp⟩
      · rw [now]; exact ⟨nofun, by simp⟩
      · rw [now]; exact ⟨nofun, nofun⟩
    · rw [entryAt_makeSourceRecord own]
      exact .inl rfl
  | create f soft =>
    exact of_parts (onlyTickets_createRecord f s).control (createRecord_soft_sources soft s)
  | @leave r res mem room =>
    have only := onlyTickets_leaveList r (pushReport (recordReport r res) s)
    refine h.of_states (fun k => (only.masks k).1) (by rw [only.control]; rfl) fun k => ?_
    rw [entryAt_leaveList_state]
    split
    · exact .inr (.inl rfl)
    · exact .inl rfl
  | reportCopy => exact h
  | count => exact h
  | freeCopy ref => rw [freeCopy_eq]; exact h
  | writeNotice n => rw [writeNotice_eq]; exact h

theorem MasksSound.change {s : State} {sources : Vector SourceEntry 8} (h : MasksSound s) (lock : LockSound s)
    (change : ∀ l, EntryChange s l (sources.get l)) : MasksSound { s with sources := sources } := by
  obtain ⟨clear, quiet⟩ := h
  constructor
  · intro k masked
    change (sources.get k).state ≠ .latched ∧ ∀ tag, (sources.get k).state ≠ .live tag true
    rcases (change k).masked masked with ⟨same, was⟩ | now
    · rw [same]; exact clear k was
    · exact now
  · intro unlocked k
    change (sources.get k).state = .quiet
    have was := quiet unlocked k
    rcases (change k).state with same | ⟨now, -⟩ | ⟨_, _, -, live⟩ | ⟨-, -, -, creates⟩ | ⟨_, _, -, live, -⟩
    · rw [same, was]
    · exact now
    · rw [was] at live; cases live
    · exact nomatch (unlocked : s.control.locked = false).symm.trans (lock.locked_of_creates creates)
    · rw [was] at live; cases live

theorem Change.masksSound {s t : State} (change : Change s t) (lock : LockSound s) (h : MasksSound s) : MasksSound t := by
  have of_parts {u : State} (locked : u.control.locked = s.control.locked) (sources : u.sources = s.sources) :
      MasksSound u := by
    have entries (k : Line) : entryAt u k = entryAt s k := by unfold entryAt; rw [sources]
    exact h.of_states (fun k => by rw [entries]) locked fun k => .inl (by rw [entries])
  have of_quiet {u : State} (quiet : ∀ k, (entryAt u k).state = .quiet) : MasksSound u :=
    ⟨fun k _ => by rw [quiet]; exact ⟨nofun, nofun⟩, fun _ => quiet⟩
  cases change with
  | ticket step => exact step.masksSound lock h
  | elsewhere same => exact of_parts same.locked same.sources
  | entries changed => exact h.change lock changed
  | lock unstarted =>
    have unlocked : s.control.locked = false := by
      by_contra locked
      exact nomatch unstarted.symm.trans (lock.1.1 (by simpa using locked))
    exact of_quiet fun k => (entryAt_firstJoin_state s k).trans (h.2 unlocked k)
  | empty empty => exact of_quiet empty.quiet
  | claim bid claimant confirm =>
    obtain ⟨-, -, -, sources, control⟩ := claimRead_lists bid claimant confirm s
    exact of_parts (by rw [control]) sources
  | _ => exact h

/-! ### No source waits beside a free place -/

def AllServed (s : State) : Prop := ∀ l, waitingSource s l = true → 32 ≤ s.offer.records.length

/-- No source waits in a state that makes no tickets. -/
theorem allServed_of_silent {s : State} (silent : s.control.state.creates = false) : AllServed s := by
  intro l waits
  rw [waitingSource_creates waits] at silent
  cases silent

theorem allServed_serveSources (s : State) : AllServed (serveSources s) := by
  intro l waits
  rcases serveSources_served s with none | full
  · rw [none l] at waits; cases waits
  · exact full

theorem AllServed.fewer {s t : State} (h : AllServed s) (waits : ∀ l, waitingSource t l = true → waitingSource s l = true)
    (records : s.offer.records.length ≤ t.offer.records.length) : AllServed t :=
  fun l w => (h l (waits l w)).trans records

/-- The entries are as they were, and the state makes tickets only where it did. -/
theorem AllServed.of_entries {s t : State} (h : AllServed s) (entries : ∀ l, entryAt t l = entryAt s l)
    (config : t.control.config = s.control.config) (records : t.offer.records.length = s.offer.records.length)
    (creates : t.control.state.creates = true → s.control.state.creates = true) : AllServed t := by
  refine h.fewer (fun l waits => ?_) records.ge
  have made := creates (waitingSource_creates waits)
  unfold waitingSource isLevel lineActive at waits ⊢
  rw [entries, config, waitingSource_creates (show waitingSource t l = true by
    unfold waitingSource isLevel lineActive; rw [entries, config]; exact waits)] at waits
  rw [made]
  exact waits

theorem AllServed.elsewhere {s t : State} (h : AllServed s) (same : Elsewhere s t)
    (creates : t.control.state.creates = true → s.control.state.creates = true := by exact id) : AllServed t :=
  h.of_entries (fun l => by unfold entryAt; rw [same.sources]) same.config (by rw [same.records]) creates

/-- A record that stays in the list leaves no more sources waiting: a NO-PEER end sets a hold (R72). -/
theorem waitingSource_numberDrawn {r : OutRecord} {res : Resolution} {s : State} {l : Line}
    (waits : waitingSource (numberDrawn r res s) l = true) : waitingSource s l = true := by
  unfold numberDrawn holdSource at waits
  split at waits
  · split at waits
    · exact waits
    · split at waits
      · rename_i k _ _
        by_cases own : k = l
        · subst own
          simp only [waitingSource, isLevel, lineActive, entryAt_setEntry, setEntry_control, if_true, countResolution_control,
            Bool.not_true, Bool.and_false, Bool.or_false, Bool.and_eq_true] at waits
          obtain ⟨able, latched⟩ := waits
          simp only [waitingSource, Bool.and_eq_true, Bool.or_eq_true]
          exact ⟨able, .inl latched⟩
        · rwa [waitingSource_setEntry_of_ne own] at waits
      · exact waits
  · exact waits

theorem resolveRecord_allServed (r : OutRecord) (res : Resolution) {s : State} (h : AllServed s) :
    AllServed (resolveRecord r res s) := by
  unfold resolveRecord placeFreed
  split
  case isTrue =>
    split
    · exact allServed_serveSources _
    · exact allServed_serveSources _
  case isFalse stays =>
    unfold leavesAtOnce at stays
    rw [fixResolution_eq]
    split
    · split
      case isTrue room => simp [room] at stays
      case isFalse => exact h.fewer (fun l waits => waitingSource_numberDrawn waits) (by simp)
    · rename_i silent
      simp [silent] at stays

theorem placeFreed_allServed (source : Source) (s : State) : AllServed (placeFreed source s) := by
  unfold placeFreed
  split <;> exact allServed_serveSources _

theorem freeCopy_allServed (ref : CopyRef) {s : State} (h : AllServed s) : AllServed (freeCopy ref s) := by
  rw [freeCopy_eq]; exact h

theorem writeNotice_allServed (n : HeldNotice) {s : State} (h : AllServed s) : AllServed (writeNotice n s) := by
  rw [writeNotice_eq]; exact h

theorem TicketMove.allServed {s t : State} (move : TicketMove s t) (h : AllServed s) : AllServed t := by
  cases move with
  | put => exact h.fewer (fun _ waits => waits) (by simp)
  | resolve res => exact resolveRecord_allServed _ res h
  | serve source => exact placeFreed_allServed source s
  | make => exact allServed_serveSources _
  | submit => exact allServed_serveSources _
  | place => exact placeFreed_allServed _ _
  | placeCopy n how => exact freeCopy_allServed n.ref h
  | endCopy n how =>
    unfold Machine.endCopy
    split
    · exact freeCopy_allServed n.ref h
    · exact writeNotice_allServed _ h
  | freeCopy ref => exact freeCopy_allServed ref h
  | writeNotice n => exact writeNotice_allServed n h

theorem AllServed.moves {s t : State} (h : AllServed s) (moves : TicketMoves s t) : AllServed t :=
  moves.keepsMoves TicketMove.allServed h

theorem AllServed.answer {s : State} (h : AllServed s) (code : ResponseCode) : AllServed (answer code s) :=
  h.elsewhere (elsewhere_answer code s)

theorem AllServed.respond {s : State} (h : AllServed s) (code : ResponseCode) (bytes : List Byte) :
    AllServed (respond code bytes s) := h.elsewhere (elsewhere_respond code bytes s)

theorem AllServed.testDrain {s : State} (h : AllServed s) : AllServed (testDrain s) := by
  have state : (Machine.testDrain s).control.state = s.control.state := congrArg Standing.state (standing_testDrain s)
  exact h.elsewhere (elsewhere_testDrain s) fun creates => state ▸ creates

/-! ### Lines and masks -/

theorem waitingSource_edge {s : State} {l : Line} (edge : isLevel s l = false) : waitingSource s l =
    (s.control.state.creates && !(entryAt s l).masked && (entryAt s l).state == .latched) := by
  simp [waitingSource, edge]

theorem waitingSource_setEntry_edge {s : State} {l : Line} (edge : isLevel s l = false) (e : SourceEntry) :
    waitingSource (setEntry l e s) l = (s.control.state.creates && !e.masked && e.state == .latched) := by
  have written : isLevel (setEntry l e s) l = false := edge
  rw [waitingSource_edge written, entryAt_setEntry, if_pos rfl]
  rfl

/-- An entry written leaves the other sources as they were. -/
theorem AllServed.setEntry {l : Line} {e : SourceEntry} {s : State} (h : AllServed s)
    (own : waitingSource (setEntry l e s) l = true → waitingSource s l = true) : AllServed (setEntry l e s) := by
  refine h.fewer (fun k waits => ?_) (le_refl _)
  by_cases same : l = k
  · subst same; exact own waits
  · rwa [waitingSource_setEntry_of_ne same] at waits

theorem unmaskLine_allServed (l : Line) {s : State} (masks : MasksSound s) (h : AllServed s) : AllServed (unmaskLine l s) := by
  unfold unmaskLine
  split
  case isTrue => exact allServed_serveSources _
  case isFalse edge =>
    refine h.setEntry fun waits => ?_
    have edge' : isLevel s l = false := by simpa using edge
    rw [waitingSource_setEntry_edge edge'] at waits
    rw [waitingSource_edge edge']
    have unmasked : (entryAt s l).masked = false := by
      by_contra masked
      have unlatched := (masks.1 l (by simpa using masked)).1
      simp only [Bool.and_eq_true, beq_iff_eq] at waits
      exact unlatched waits.2
    rw [unmasked]
    exact waits

theorem maskCommand_allServed (entry value : Byte) {s : State} (masks : MasksSound s) (h : AllServed s) :
    AllServed (maskCommand entry value s) := by
  have set (l : Line) : AllServed (Machine.setEntry l (maskedEntry (entryAt s l)) s) := by
    refine h.setEntry fun waits => ?_
    have masked : (maskedEntry (entryAt s l)).masked = true := by rw [maskedEntry_eq]
    simp [waitingSource, masked] at waits
  unfold maskCommand
  split
  · exact h.answer _
  · split
    · split
      · exact (set _).answer _
      · split
        · exact (unmaskLine_allServed _ masks h).answer _
        · exact h.answer _
    · exact h.answer _

theorem takeLevel_edge_waiting {s : State} {l : Line} (edge : isLevel s l = false) (high : Bool) :
    waitingSource (takeLevel l high s) l = waitingSource s l := by
  unfold takeLevel
  rw [waitingSource_setEntry_edge edge, waitingSource_edge edge]

theorem edgeTaken_allServed (l : Line) {s : State} (edge : isLevel s l = false) (h : AllServed s) :
    AllServed (edgeTaken l s) := by
  unfold edgeTaken
  split
  · split
    case isTrue => exact allServed_serveSources _
    case isFalse full =>
      intro k _
      change 32 ≤ s.offer.records.length
      rw [recordRoom_iff] at full
      omega
  · exact h
  · refine h.setEntry fun waits => ?_
    rw [waitingSource_setEntry_edge edge] at waits
    simp at waits

theorem lineActivated_allServed (l : Line) {s : State} (h : AllServed s) : AllServed (lineActivated l s) := by
  unfold lineActivated
  split
  · exact h
  · unfold lineActs
    split
    case isTrue => exact allServed_serveSources _
    case isFalse edge =>
      have edge' : isLevel s l = false := eq_false_of_ne_true edge
      have taken : AllServed (takeLevel l (activeLevel s l) s) :=
        h.setEntry fun waits => takeLevel_edge_waiting edge' (activeLevel s l) ▸ waits
      split
      · exact edgeTaken_allServed l edge' taken
      · exact taken

/-- A level entry whose line is inactive does not wait unless it is LATCHED. -/
theorem lineInactivated_allServed (l : Line) {s : State} (h : AllServed s) : AllServed (lineInactivated l s) := by
  unfold lineInactivated
  split
  case isFalse => exact h
  case isTrue =>
    have inactive : lineActive (takeLevel l (!activeLevel s l) s) l = false := by
      unfold takeLevel lineActive activeLevel
      rw [entryAt_setEntry, if_pos rfl]
      simp
    have latched (waits : waitingSource (takeLevel l (!activeLevel s l) s) l = true) : waitingSource s l = true := by
      simp only [waitingSource, inactive, Bool.and_false, Bool.false_and, Bool.or_false] at waits
      unfold takeLevel at waits
      rw [entryAt_setEntry, if_pos rfl] at waits
      simp only [waitingSource, Bool.and_eq_true, Bool.or_eq_true] at waits ⊢
      exact ⟨waits.1, .inl waits.2⟩
    have taken : AllServed (takeLevel l (!activeLevel s l) s) := h.setEntry latched
    simp only
    split
    · refine taken.setEntry fun waits => ?_
      have inactive' : lineActive (Machine.setEntry l { entryAt (takeLevel l (!activeLevel s l) s) l with hold := false }
          (takeLevel l (!activeLevel s l) s)) l = false := by
        rw [← inactive]
        unfold lineActive
        rw [entryAt_setEntry, if_pos rfl]
        rfl
      simp only [waitingSource, inactive', Bool.and_false, Bool.false_and, Bool.or_false, entryAt_setEntry, if_true,
        Bool.and_eq_true, Bool.or_eq_true] at waits ⊢
      exact ⟨waits.1, .inl waits.2⟩
    · exact taken

/-! ### The other commands -/

theorem chooseOffer_allServed (tags : List Tag) {s : State} (h : AllServed s) : AllServed (chooseOffer tags s) := by
  induction tags generalizing s with
  | nil => exact h
  | cons tag rest ih =>
    unfold chooseOffer
    split
    · exact ih h
    · split
      · split
        · exact h.fewer (fun _ waits => waits) (by simp)
        · exact ih (resolveRecord_allServed _ _ h)
      · exact ih h

theorem chooseFrame_allServed {s : State} (h : AllServed s) : AllServed (chooseFrame s) := by
  have start (c : Candidate) (f : Frame) : AllServed (startFrame c f s) := h.elsewhere (elsewhere_startFrame c f s)
  unfold chooseFrame
  split
  · split
    · exact start _ _
    · exact h
  · split
    · exact start _ _
    · split
      · exact start _ _
      · exact chooseOffer_allServed _ h

theorem muteIfDue_allServed {s : State} (h : AllServed s) : AllServed (muteIfDue s) := by
  unfold muteIfDue
  split
  · exact allServed_serveSources _
  · exact h

theorem orphanPeer_allServed (sender : StationNumber) {s : State} (h : AllServed s) : AllServed (orphanPeer sender s) := by
  unfold orphanPeer
  split
  · exact h.moves (orphan_moves sender s)
  · exact h

theorem disposeSlot_allServed (i : Fin 8) (kind : NoticeKind) {s : State} (h : AllServed s) :
    AllServed (disposeSlot i kind s) := by
  unfold disposeSlot
  split
  · exact h.answer _
  · split
    · rename_i e _ _ _
      have made : AllServed (setSlot i (some { e with state := .notifying kind s.work.noticeCounter 0 none })
          { s with work.noticeCounter := s.work.noticeCounter + 1 }) := h
      refine (AllServed.testDrain ?_).answer _
      unfold makeNotice
      simp only
      split
      · exact made.moves (handIfSelf_moves _ _)
      · exact made
    · exact h.answer _

theorem joinRead_allServed (sender : StationNumber) (resumed clash : Bool) {s : State} (h : AllServed s) :
    AllServed (joinRead sender resumed clash s) := by
  unfold joinRead
  split
  · exact h
  · split
    · exact allServed_of_silent rfl
    · split
      · exact h.elsewhere (elsewhere_addToRoster sender s)
      · exact AllServed.testDrain ((orphanPeer_allServed sender h).elsewhere (elsewhere_addToRoster sender _))

theorem leaveRead_allServed (sender : StationNumber) {s : State} (h : AllServed s) : AllServed (leaveRead sender s) := by
  unfold leaveRead
  split
  · have removed (t : State) : Elsewhere t { t with control.roster := setRemove t.control.roster sender } := {}
    have left := (orphanPeer_allServed sender h).elsewhere (removed (orphanPeer sender s)) id
    exact left.testDrain
  · exact h

theorem noticeAnswered_allServed (n : NoticeFields) {s : State} (h : AllServed s) : AllServed (noticeAnswered n s) := by
  unfold noticeAnswered
  split
  · split
    · rename_i r matched
      obtain ⟨mem, play⟩ := matchNotice_inPlay matched
      have answered : AllServed (setAnswer (.notice true false) s) := h
      exact (answered.moves (noticeAccepted_moves (wordNotice n) n.sender mem play)).testDrain
    · exact h
  · exact h

theorem claimRead_allServed (bid : BitVec 6) (claimant : StationNumber) (confirm : Bool) {s : State} (h : AllServed s) :
    AllServed (claimRead bid claimant confirm s) := by
  obtain ⟨offer, -, -, sources, control⟩ := claimRead_lists bid claimant confirm s
  refine h.of_entries (fun l => by unfold entryAt; rw [sources]) (by rw [control]) (by rw [offer]) fun creates => ?_
  rw [control] at creates
  exact creates

theorem writeConfig_allServed (group field : Byte) (value : BitVec 40) {s : State} (lock : LockSound s) (h : AllServed s) :
    AllServed (writeConfig group field value s) := by
  unfold writeConfig
  split
  · exact h.answer _
  · split
    · exact h.answer _
    · rename_i unlocked
      split
      · exact h.answer _
      · split
        · exact h.answer _
        · refine AllServed.answer (allServed_of_silent ?_) _
          by_contra creates
          exact unlocked (lock.locked_of_creates (by simpa using creates))

theorem offerFrameEnded_allServed (fate : OfferFate) {s : State} (h : AllServed s) : AllServed (offerFrameEnded fate s) := by
  unfold offerFrameEnded
  split
  case h_1 tag own =>
    have dropped := (h.elsewhere (elsewhere_endOwnFrame (offerErrors s.bus.errorCount fate) s)).elsewhere
      (elsewhere_dropHand fate _) (by cases fate <;> exact id)
    have learned := dropped.elsewhere (elsewhere_learnClaimant fate _) (by unfold learnClaimant; split <;> exact id)
    exact (muteIfDue_allServed (learned.moves (offerEnded_moves tag fate _))).testDrain
  all_goals exact h

theorem noticeFrameEnded_allServed (fate : NoticeFate) {s : State} (h : AllServed s) :
    AllServed (noticeFrameEnded fate s) := by
  unfold noticeFrameEnded
  split
  case h_1 ref own =>
    have ended := h.elsewhere (elsewhere_endOwnFrame (noticeErrors s.bus.errorCount fate) s)
    refine (muteIfDue_allServed ?_).testDrain
    split
    · exact ended.moves (noticeEnded_moves _ fate _)
    · exact ended
  all_goals exact h

theorem joinFrameEnded_allServed (fate : JoinFate) {s : State} (h : AllServed s) : AllServed (joinFrameEnded fate s) := by
  unfold joinFrameEnded
  split
  case h_1 own =>
    refine muteIfDue_allServed ?_
    unfold joinEnded
    split
    case h_1 presence => exact allServed_serveSources _
    case h_2 => exact allServed_of_silent rfl
    all_goals exact h.elsewhere (elsewhere_endOwnFrame _ s)
  all_goals exact h

theorem leaveFrameEnded_allServed (fate : LeaveFate) {s : State} (h : AllServed s) : AllServed (leaveFrameEnded fate s) := by
  unfold leaveFrameEnded
  split
  case h_1 own =>
    refine muteIfDue_allServed ?_
    unfold leaveEnded
    split
    case h_1 => exact allServed_of_silent rfl
    all_goals exact h.elsewhere (elsewhere_endOwnFrame _ s)
  all_goals exact h

theorem cancelCommand_allServed (tag : Tag) {s : State} (h : AllServed s) : AllServed (cancelCommand tag s) := by
  unfold cancelCommand
  split
  · exact h.answer _
  · split
    · exact h.answer _
    · rename_i r found
      have resolved := (resolveRecord_allServed r .cancelled h).testDrain.answer .ok
      unfold cancelRecord
      split
      case h_1 => exact resolved
      case h_2 => exact resolved
      case h_3 offering =>
        exact (h.moves (putRecord_moves (findRecord_mem found).1 (by rw [offering]; rfl) _)).answer _
      case h_4 => exact resolved
      case h_5 => exact h.answer _

theorem submitCommand_allServed (cls level flag : Byte) (set : BitVec 16) (addr : Address) {s : State} (h : AllServed s) :
    AllServed (submitCommand cls level flag set addr s) := by
  unfold submitCommand
  split
  · exact h.answer _
  · split
    · exact h.answer _
    · split
      · exact h.answer _
      · exact (allServed_serveSources _).respond _ _

theorem takeCommand_allServed {s : State} (h : AllServed s) : AllServed (takeCommand s) := by
  unfold takeCommand
  split
  · exact h.answer _
  · split
    · exact h.answer _
    · split
      · exact h.answer _
      · rename_i i _ _ r _
        refine AllServed.respond ?_ _ _
        unfold takeRecord useAddress
        split <;> exact h

theorem finishCommand_allServed (slot outcome : Byte) {s : State} (h : AllServed s) :
    AllServed (finishCommand slot outcome s) := by
  unfold finishCommand
  split
  · exact h.answer _
  · split
    · exact h.answer _
    · split
      · exact h.answer _
      · exact disposeSlot_allServed _ _ h

theorem handBackCommand_allServed (slot : Byte) {s : State} (h : AllServed s) : AllServed (handBackCommand slot s) := by
  unfold handBackCommand
  split
  · exact h.answer _
  · split
    · exact h.answer _
    · exact disposeSlot_allServed _ _ h

theorem reportCommand_allServed {s : State} (h : AllServed s) : AllServed (reportCommand s) := by
  unfold reportCommand
  split
  · exact h.answer _
  · rename_i rest _
    have dropped : AllServed { s with reports.queue := rest } := h
    exact (AllServed.testDrain (dropped.moves (placeWaiting_moves _))).respond _ _

theorem joinCommand_allServed {s : State} (h : AllServed s) : AllServed (joinCommand s) := by
  unfold joinCommand
  split
  case h_1 =>
    unfold firstJoin
    split
    · exact AllServed.answer (allServed_of_silent rfl) _
    · exact h.answer _
  case h_2 => exact AllServed.answer (allServed_of_silent rfl) _
  case h_3 => exact AllServed.answer (allServed_of_silent rfl) _
  case h_4 => exact AllServed.answer (allServed_of_silent rfl) _
  all_goals exact h.answer _

theorem drainCommand_allServed {s : State} (h : AllServed s) : AllServed (drainCommand s) := by
  unfold drainCommand
  split
  · refine AllServed.answer (allServed_of_silent ?_) _
    rw [show (drainTaken s).control.state = .draining from congrArg Standing.state (standing_drainTaken s)]
    rfl
  · exact h.answer _

theorem timers_allServed (tag : Tag) {s : State} (h : AllServed s) :
    AllServed (backoffExpired tag s) ∧ AllServed (deadlineExpired tag s) := by
  constructor
  · unfold backoffExpired
    split
    · split
      · exact h.fewer (fun _ waits => waits) (by simp)
      · exact h
    · exact h
  · unfold deadlineExpired
    split
    · rename_i r found
      split
      · exact (h.moves (lapse_moves (findRecord_mem found).1)).testDrain
      · exact h
    · exact h

theorem drainLimitExpired_allServed {s : State} (h : AllServed s) : AllServed (drainLimitExpired s) := by
  unfold drainLimitExpired
  split
  · have passed : AllServed { s with control.drainTimer := none, control.drainPassed := true } := h
    exact (passed.moves (withdrawRemaining_moves _)).testDrain
  · exact h

theorem AllServed.fromStation {sender : StationNumber} {f : State → State} {s : State} (h : AllServed s)
    (acts : AllServed (f s)) : AllServed (fromStation sender f s) := by
  unfold Machine.fromStation
  split
  · exact acts
  · exact h

theorem AllServed.whenReceiving {f : State → State} {s : State} (h : AllServed s) (acts : AllServed (f s)) :
    AllServed (whenReceiving f s) := by
  unfold Machine.whenReceiving
  split
  · exact acts
  · exact h

theorem effect_allServed (c : Instr) {s : State} (lock : LockSound s) (masks : MasksSound s) (h : AllServed s) :
    AllServed (effect c s) := by
  cases c with
  | resetAssert => exact h
  | resetRelease straps =>
    refine allServed_of_silent ?_
    change StationState.creates (if straps = 15 then .faultNumber else .unconfigured) = false
    split <;> rfl
  | configWrite g f v => exact writeConfig_allServed g f v lock h
  | configRead g f =>
    change AllServed (readConfig g f s)
    unfold readConfig
    split
    · exact h.answer _
    · exact h.respond _ _
  | join => exact joinCommand_allServed h
  | drain => exact drainCommand_allServed h
  | restart =>
    change AllServed (restartCommand s)
    unfold restartCommand
    split
    · exact AllServed.answer (allServed_of_silent rfl) _
    · exact h.answer _
  | submit c l p set a => exact submitCommand_allServed c l p set a h
  | cancel tag => exact cancelCommand_allServed tag h
  | query tag =>
    change AllServed (queryCommand tag s)
    unfold queryCommand
    split
    · exact h.answer _
    · exact h.respond _ _
  | take => exact takeCommand_allServed h
  | finish i o => exact finishCommand_allServed i o h
  | handBack i => exact handBackCommand_allServed i h
  | report => exact reportCommand_allServed h
  | status => exact h
  | mask e v => exact maskCommand_allServed e v masks h
  | touch a =>
    change AllServed (touchCommand a s)
    unfold touchCommand
    split
    · exact AllServed.answer (s := useAddress (some a) s) h _
    · exact h.answer _
  | forget =>
    change AllServed (forgetCommand s)
    unfold forgetCommand
    split
    · exact AllServed.answer (s := { s with claim.affinity := [] }) h _
    · exact h.answer _
  | roster => exact h.respond _ _
  | unknownCommandByte _ => exact h.answer _
  | transactionDiscarded => exact h
  | lineBecomesActive l => exact lineActivated_allServed l h
  | lineBecomesInactive l => exact lineInactivated_allServed l h
  | deadlineTick => exact h.fewer (fun _ waits => waits) (by simp [effect, tick])
  | backoffExpiry tag => exact (timers_allServed tag h).1
  | deadlineExpiry tag => exact (timers_allServed tag h).2
  | drainLimitExpiry => exact drainLimitExpired_allServed h
  | synchronisationQuiet =>
    change AllServed (quietSeen s)
    unfold quietSeen
    split <;> exact h
  | unreadableKind _ => exact h.whenReceiving (h.elsewhere (elsewhere_loseSynchronisation s))
  | frameStart =>
    change AllServed (if freeToStart s then testDrain (chooseFrame { s with claim.offerInHand := none }) else s)
    split
    · exact AllServed.testDrain (chooseFrame_allServed (s := { s with claim.offerInHand := none }) h)
    · exact h
  | offerValidated o => exact h.fromStation (f := fun s => { s with claim.offerInHand := some (decideOffer o s) }) h
  | claimAsRead bid claimant confirm => exact h.whenReceiving (claimRead_allServed bid claimant confirm h)
  | noticeReceived n =>
    refine h.fromStation (f := fun s => if n.target = s.control.number then noticeAnswered n s else s) ?_
    split
    · exact noticeAnswered_allServed n h
    · exact h
  | noticeSenderLearned sender => exact h.fromStation (f := fun s => setAnswer .none (addToRoster sender s)) h
  | joinAnswer sender => exact h.fromStation (f := fun s => setAnswer _ s) h
  | joinReceived sender resumed clash =>
    exact h.fromStation (f := fun s => joinRead sender resumed clash (setAnswer .none s))
      (joinRead_allServed sender resumed clash (s := setAnswer .none s) h)
  | leaveReceived sender =>
    exact h.fromStation
      (f := fun s => leaveRead sender (setAnswer (if s.control.state.sends then .acknowledge else .none) s))
      (leaveRead_allServed sender (s := setAnswer _ s) h)
  | offerFrameEnd fate => exact offerFrameEnded_allServed fate h
  | noticeFrameFate fate => exact noticeFrameEnded_allServed fate h
  | joinFrameEnd fate => exact joinFrameEnded_allServed fate h
  | leaveFrameEnd fate => exact leaveFrameEnded_allServed fate h
  | checkFoundBad => exact h.whenReceiving h

/-! ### Every step -/

/-- What a line's last sample was does not say whether its source waits. -/
theorem waitingSource_of_entry {s t : State} {l : Line} {seen : Bool} (control : t.control = s.control)
    (entry : entryAt t l = { entryAt s l with oppositeSeen := seen }) : waitingSource t l = waitingSource s l := by
  unfold waitingSource isLevel lineActive
  rw [control, entry]

theorem insideBit_standing (read : Bool) (before : List Bool) (s : State) :
    (insideBit read before s).1.control = s.control := by
  obtain ⟨bus, eq, -⟩ := insideBit_bus_claim read before s
  rw [eq]

theorem busBit_control (read : Bool) (s : State) : (busBit read s).1.control = s.control := by
  unfold busBit
  split
  · rfl
  · simp only
    split
    · rfl
    · split
      · exact insideBit_standing _ _ s
      · split <;> rfl

theorem bitPeriod_allServed (dbd : Bool) (src : BitVec 8) {s : State} (h : AllServed s) : AllServed (bitPeriod dbd src s) := by
  unfold bitPeriod
  split
  · exact h
  · have bus := elsewhere_busBit dbd s
    refine h.fewer (fun l waits => ?_) (by simpa using bus.records.symm ▸ le_refl _)
    obtain ⟨seen, sampled⟩ := sampleLine_keeps s src l
    set t : State := { (busBit dbd s).1 with
      offer.tickCount := s.offer.tickCount + 1
      sources := Vector.ofFn fun l => (sampleLine s src l).1 } with ht
    have entry : entryAt t l = { entryAt s l with oppositeSeen := seen } :=
      (vector_get_ofFn (fun l => (sampleLine s src l).1) l).trans sampled
    rw [← waitingSource_of_entry (t := t) (busBit_control dbd s) entry]
    exact waits

theorem portClock_allServed (sdi : Bool) {s : State} (h : AllServed s) : AllServed (portClock sdi s) := by
  unfold portClock
  split
  · exact h
  · split
    · exact h
    · simp only
      split
      · exact h
      · split <;> exact h

/-- On an empty queue no entry starts to wait: only what the lines' samples remember moves. -/
theorem idle_allServed {s : State} (h : AllServed s) : AllServed (idle s) := by
  unfold idle
  split
  · exact h
  · split
    case h_2 => exact h
    case h_1 e rest _ =>
      have taken : AllServed { s with inputs := rest } := h
      cases e with
      | bitPeriod dbd src => exact bitPeriod_allServed dbd src taken
      | scsFall =>
        change AllServed (portFall _)
        unfold portFall
        split <;> exact h
      | scsRise =>
        change AllServed (portRise _)
        unfold portRise
        simp only
        split <;> exact h
      | sck sdi => exact portClock_allServed sdi taken

theorem servedSound_iff {s : State} : s.ServedSound ↔ AllServed s ∧ MasksSound s := Iff.rfl

/-- Settles O59: each change keeps the masked entries clear, and each command ends with the sources served. -/
theorem sourcesStayServed : Obligations.SourcesStayServed := by
  intro s t control served step
  obtain ⟨all, masks⟩ := servedSound_iff.1 served
  have law := step_keeps (P := fun s => LockSound s ∧ MasksSound s)
    (fun change ⟨lock, masks⟩ => ⟨change.lockSound lock, change.masksSound lock masks⟩) (fun _ law => law)
    (fun straps s => by
      obtain ⟨-, -, control, -, served, -⟩ := release_sound straps s
      exact ⟨control.lock, (servedSound_iff.1 served).2⟩) step ⟨control.lock, masks⟩
  refine servedSound_iff.2 ⟨?_, law.2⟩
  rcases step_cases step with ⟨-, rfl⟩ | ⟨c, rest, -, run⟩
  · exact idle_allServed all
  · rcases exec_cases run with rfl | rfl
    · exact all
    · exact effect_allServed c (s := { s with pending := rest }) control.lock masks all

end Sys2Proof.Machine
end

section
/-! PROOFS. Station control, the bus unit and the error count stay in agreement (R18, R41 to R58): most commands leave their items,
or add to the roster; the entries to station states, the starts and ends of own frames and the drain test are taken one by one. -/

namespace Sys2Proof.Machine

/-! ### The law, item by item -/

/-- `State.ControlSound` by name, without the bound on the error count of a station that sends. -/
structure ControlLaw (s : State) : Prop where
  fault : s.control.number = 15 ↔ s.control.state = .faultNumber
  locked : s.control.locked = true ↔ s.control.state ≠ .unconfigured ∧ s.control.state ≠ .faultNumber
  valid : s.control.locked = true → s.control.config.valid = true
  join : s.control.joinCandidate ≠ none ↔ s.control.state = .joining
  leave : s.control.leaveCandidate = true → s.control.state = .draining ∧ s.control.drainTimer = none
  timer : s.control.drainTimer ≠ none → s.control.state = .draining
  own : s.control.state.answers = true ∨ s.control.state = .muted → setHas s.control.roster s.control.number = true
  synchronised : s.bus.synchronised = true → s.control.state.receives = true
  sent : ∀ f, s.bus.ownFrame = some f → f.candidate.sentIn s
  errors : s.bus.errorCount ≤ 39

/-- A station that sends has a count below 32 (R42). -/
def SendsBelow (s : State) : Prop := s.control.state.sends = true → s.bus.errorCount ≤ 31

theorem controlSound_iff {s : State} : s.ControlSound ↔ ControlLaw s ∧ SendsBelow s := by
  constructor
  · rintro ⟨fault, locked, valid, join, leave, timer, own, synchronised, sent, errors, sends⟩
    exact ⟨⟨fault, locked, valid, join, leave, timer, own, synchronised, sent, errors⟩, sends⟩
  · rintro ⟨⟨fault, locked, valid, join, leave, timer, own, synchronised, sent, errors⟩, sends⟩
    exact ⟨fault, locked, valid, join, leave, timer, own, synchronised, sent, errors, sends⟩

/-- From `s` to `t` neither station state nor candidates have changed, the roster has kept the station's own number where the
station is in it, and the bus unit has neither become synchronised nor started a frame. -/
structure SameControl (s t : State) : Prop where
  number : t.control.number = s.control.number := by rfl
  state : t.control.state = s.control.state := by rfl
  locked : t.control.locked = s.control.locked := by rfl
  config : t.control.config = s.control.config := by rfl
  join : t.control.joinCandidate = s.control.joinCandidate := by rfl
  leave : t.control.leaveCandidate = s.control.leaveCandidate := by rfl
  timer : t.control.drainTimer ≠ none → s.control.drainTimer ≠ none := by exact id
  own : s.control.state.answers = true ∨ s.control.state = .muted → setHas s.control.roster s.control.number = true →
    setHas t.control.roster s.control.number = true := by exact fun _ => id
  synchronised : t.bus.synchronised = true → s.bus.synchronised = true := by exact id
  sent : ∀ f, t.bus.ownFrame = some f → ∃ f', s.bus.ownFrame = some f' ∧ f.candidate = f'.candidate := by
    exact fun f flight => ⟨f, flight, rfl⟩
  errors : t.bus.errorCount = s.bus.errorCount := by rfl

theorem Candidate.sentIn_congr {s t : State} (state : t.control.state = s.control.state)
    (leave : t.control.leaveCandidate = s.control.leaveCandidate) (c : Candidate) : c.sentIn t ↔ c.sentIn s := by
  cases c <;> simp only [Candidate.sentIn, state, leave]

theorem SameControl.trans {s t u : State} (h : SameControl s t) (k : SameControl t u) : SameControl s u where
  number := k.number.trans h.number
  state := k.state.trans h.state
  locked := k.locked.trans h.locked
  config := k.config.trans h.config
  join := k.join.trans h.join
  leave := k.leave.trans h.leave
  timer some := h.timer (k.timer some)
  own active held := by
    have later := k.own (by rwa [h.state]) (by rw [h.number]; exact h.own active held)
    rwa [h.number] at later
  synchronised sync := h.synchronised (k.synchronised sync)
  sent f flight := by
    obtain ⟨f', flight', same⟩ := k.sent f flight
    obtain ⟨f'', flight'', same'⟩ := h.sent f' flight'
    exact ⟨f'', flight'', same.trans same'⟩
  errors := k.errors.trans h.errors

/-- Drops the count's part, for the two laws that differ in it. -/
theorem ControlLaw.same {s t : State} (h : ControlLaw s) (same : SameControl s t) : ControlLaw t where
  fault := by rw [same.number, same.state]; exact h.fault
  locked := by rw [same.locked, same.state]; exact h.locked
  valid := by rw [same.locked, same.config]; exact h.valid
  join := by rw [same.join, same.state]; exact h.join
  leave present := by
    rw [same.leave] at present
    obtain ⟨draining, stopped⟩ := h.leave present
    refine ⟨by rw [same.state]; exact draining, ?_⟩
    by_contra some
    exact same.timer some stopped
  timer some := by rw [same.state]; exact h.timer (same.timer some)
  own active := by
    rw [same.state] at active
    rw [same.number]
    exact same.own active (h.own active)
  synchronised sync := by rw [same.state]; exact h.synchronised (same.synchronised sync)
  sent f flight := by
    obtain ⟨f', flight', candidate⟩ := same.sent f flight
    rw [candidate]
    exact (Candidate.sentIn_congr same.state same.leave _).2 (h.sent f' flight')
  errors := by rw [same.errors]; exact h.errors

theorem State.ControlSound.same {s t : State} (h : s.ControlSound) (same : SameControl s t) : t.ControlSound := by
  obtain ⟨law, below⟩ := controlSound_iff.1 h
  refine controlSound_iff.2 ⟨law.same same, fun sends => ?_⟩
  rw [same.errors]
  exact below (by rwa [same.state] at sends)

/-! ### What leaves the law's items -/

theorem sameControl_of_eq {s t : State} (control : t.control = s.control) (bus : t.bus = s.bus) : SameControl s t where
  number := by rw [control]
  state := by rw [control]
  locked := by rw [control]
  config := by rw [control]
  join := by rw [control]
  leave := by rw [control]
  timer some := by rwa [control] at some
  own _ held := by rwa [control]
  synchronised sync := by rwa [bus] at sync
  sent f flight := ⟨f, by rwa [bus] at flight, rfl⟩
  errors := by rw [bus]

theorem TicketMoves.same {s t : State} (moves : TicketMoves s t) : SameControl s t :=
  sameControl_of_eq moves.onlyTickets.control moves.onlyTickets.bus

theorem setHas_setAdd {roster : StationSet} {n m : StationNumber} (h : setHas roster n = true) :
    setHas (setAdd roster m) n = true := by
  unfold setHas setAdd at *
  rw [BitVec.getLsbD_or, h, Bool.true_or]

theorem setHas_setOf {n : StationNumber} (station : n ≠ 15) : setHas (setOf n) n = true := by
  have below : n.toNat < 15 := by
    have := n.isLt
    have : n.toNat ≠ 15 := fun same => station (BitVec.eq_of_toNat_eq same)
    omega
  unfold setHas setOf
  simp [below]

theorem setHas_setAdd_self (roster : StationSet) {n : StationNumber} (station : n ≠ 15) : setHas (setAdd roster n) n = true := by
  have own := setHas_setOf station
  unfold setHas setAdd at *
  rw [BitVec.getLsbD_or, own, Bool.or_true]

theorem setHas_setRemove {roster : StationSet} {n m : StationNumber} (h : setHas roster n = true) (other : m ≠ n) :
    setHas (setRemove roster m) n = true := by
  have apart : m.toNat ≠ n.toNat := fun same => other (BitVec.eq_of_toNat_eq same)
  unfold setHas setRemove setOf at *
  have below := BitVec.lt_of_getLsbD h
  simp only [BitVec.getLsbD_and, h, BitVec.getLsbD_not, below, decide_true, Bool.true_and, BitVec.getLsbD_shiftLeft,
    BitVec.getLsbD_one]
  by_cases after : n.toNat < m.toNat
  · simp [after]
  · have : n.toNat - m.toNat ≠ 0 := by omega
    simp [this]

theorem same_addToRoster (n : StationNumber) (s : State) : SameControl s (addToRoster n s) where
  own _ held := setHas_setAdd held

theorem same_setAnswer (a : Answer) (s : State) : SameControl s (setAnswer a s) := {}

theorem same_loseSynchronisation (s : State) : SameControl s (loseSynchronisation s) where
  synchronised := nofun

theorem same_stopBus (s : State) : SameControl s (stopBus s) where
  synchronised := nofun
  sent := nofun

theorem same_commitClaim (h : OfferInHand) (s : State) : SameControl s (commitClaim h s) := by
  unfold commitClaim
  split
  · split
    · unfold commitUpgrade
      split
      · split <;> exact {}
      · exact {}
    · exact {}
  · exact {}

theorem same_claimRead (bid : BitVec 6) (claimant : StationNumber) (confirm : Bool) (s : State) :
    SameControl s (claimRead bid claimant confirm s) := by
  unfold claimRead
  split
  · exact {}
  · rename_i h _
    have ended : SameControl s { addToRoster h.offer.sender s with claim.offerInHand := none, bus.answer := .none } :=
      { own := fun _ held => setHas_setAdd held }
    simp only
    split
    · split
      · exact (ended.trans (same_addToRoster claimant _)).trans (same_commitClaim h _)
      · exact ended.trans (same_addToRoster claimant _)
    · exact ended

theorem ownReads_candidate (n : Nat) (driven read : Bool) (f : OwnFrame) :
    (ownReads n driven read f).candidate = f.candidate := by
  unfold ownReads
  simp only
  split
  · rfl
  · split
    · split
      · rfl
      · split <;> rfl
    · split
      · split <;> rfl
      · split <;> rfl

theorem same_busBit (read : Bool) (s : State) : SameControl s (busBit read s).1 := by
  unfold busBit
  split
  · exact {}
  · simp only
    split
    · exact {}
    · split
      · rename_i bits _
        obtain ⟨bus, eq, synchronised, errors, own⟩ := insideBit_bus_claim read bits s
        rw [eq]
        refine { synchronised := fun sync => synchronised ▸ sync, sent := fun f flight => ?_, errors := errors }
        obtain ⟨f', flight', rfl⟩ := Option.map_eq_some_iff.1 (own ▸ flight)
        exact ⟨f', flight', ownReads_candidate _ _ _ f'⟩
      · split <;> exact {}

/-- With no command waiting, the bus unit reads on in its frame and nothing else of the law moves. -/
theorem same_idle (s : State) : SameControl s (idle s) := by
  unfold idle
  split
  · exact {}
  · split
    case h_2 => exact {}
    case h_1 e rest _ =>
      have taken : SameControl s { s with inputs := rest } := {}
      refine taken.trans ?_
      cases e with
      | bitPeriod dbd src =>
        change SameControl _ (bitPeriod dbd src _)
        unfold bitPeriod
        split
        · exact {}
        · exact (same_busBit dbd _).trans (sameControl_of_eq rfl rfl)
      | scsFall =>
        change SameControl _ (portFall _)
        unfold portFall
        split <;> exact {}
      | scsRise =>
        change SameControl _ (portRise _)
        unfold portRise
        simp only
        split <;> exact {}
      | sck sdi =>
        change SameControl _ (portClock sdi _)
        unfold portClock
        split
        · exact {}
        · split
          · exact {}
          · simp only
            split
            · exact {}
            · split <;> exact {}

/-! ### The drain test -/

/-- What the drain test does to control where it finds the drain complete. -/
theorem ControlLaw.leavePresent {s t : State} (h : ControlLaw s) (draining : s.control.state = .draining)
    (bus : t.bus = s.bus) (control : t.control = { s.control with drainTimer := none, leaveCandidate := true }) :
    ControlLaw t where
  fault := by rw [control]; exact h.fault
  locked := by rw [control]; exact h.locked
  valid := by rw [control]; exact h.valid
  join := by rw [control]; exact h.join
  leave _ := by rw [control]; exact ⟨draining, rfl⟩
  timer some := absurd (by rw [control]) some
  own := by rw [control]; exact h.own
  synchronised := by rw [control, bus]; exact h.synchronised
  sent f flight := by
    have before := h.sent f (by rwa [bus] at flight)
    unfold Candidate.sentIn at before ⊢
    rw [control]
    cases candidate : f.candidate with
    | leave => exact ⟨draining, rfl⟩
    | join => simpa only [candidate] using before
    | notice => simpa only [candidate] using before
    | offer => simpa only [candidate] using before
  errors := by rw [bus]; exact h.errors

theorem State.ControlSound.testDrain {s : State} (h : s.ControlSound) : (testDrain s).ControlSound := by
  unfold Machine.testDrain
  split
  case isTrue holds =>
    obtain ⟨law, below⟩ := controlSound_iff.1 h
    exact controlSound_iff.2 ⟨law.leavePresent holds.1 rfl rfl, below⟩
  case isFalse => exact h

theorem State.ControlSound.moves {s t : State} (h : s.ControlSound) (moves : TicketMoves s t) : t.ControlSound :=
  h.same moves.same

/-! ### Commands that leave station control -/

theorem State.ControlSound.answer {s : State} (h : s.ControlSound) (code : ResponseCode) : (answer code s).ControlSound := h

theorem State.ControlSound.respond {s : State} (h : s.ControlSound) (code : ResponseCode) (bytes : List Byte) :
    (respond code bytes s).ControlSound := h

theorem same_useAddress (addr : Option Address) (s : State) : SameControl s (useAddress addr s) := by
  unfold useAddress
  split <;> exact {}

theorem writeConfig_controlSound (group field : Byte) (value : BitVec 40) {s : State} (h : s.ControlSound) :
    (writeConfig group field value s).ControlSound := by
  unfold writeConfig
  split
  · exact h.answer _
  · split
    case isTrue => exact h.answer _
    case isFalse unlocked =>
      split
      · exact h.answer _
      · split
        · exact h.answer _
        · obtain ⟨law, below⟩ := controlSound_iff.1 h
          exact controlSound_iff.2 ⟨{ law with valid := fun locked => absurd locked unlocked }, below⟩

theorem submitCommand_controlSound (cls level flag : Byte) (set : BitVec 16) (addr : Address) {s : State}
    (h : s.ControlSound) : (submitCommand cls level flag set addr s).ControlSound := by
  unfold submitCommand
  split
  · exact h.answer _
  · split
    · exact h.answer _
    · split
      · exact h.answer _
      · have made := onlyTickets_createAndServe (submitFields cls level flag set addr) s
        exact (h.same (sameControl_of_eq made.control made.bus)).respond _ _

theorem cancelCommand_controlSound (tag : Tag) {s : State} (h : s.ControlSound) : (cancelCommand tag s).ControlSound := by
  unfold cancelCommand
  split
  · exact h.answer _
  · split
    · exact h.answer _
    · rename_i r _
      have resolved := onlyTickets_resolveRecord r .cancelled s
      have after := ((h.same (sameControl_of_eq resolved.control resolved.bus)).testDrain).answer .ok
      unfold cancelRecord
      split
      case h_1 => exact after
      case h_2 => exact after
      case h_3 => exact h.answer .ok
      case h_4 => exact after
      case h_5 => exact h.answer _

theorem takeCommand_controlSound {s : State} (h : s.ControlSound) : (takeCommand s).ControlSound := by
  unfold takeCommand
  split
  · exact h.answer _
  · split
    · exact h.answer _
    · split
      · exact h.answer _
      · rename_i i _ _ r _
        have moved : SameControl s (setSlot i (some (takenEntry r)) (freeCopy (.inbound r.originator r.tag) s)) := {}
        exact (h.same (moved.trans (same_useAddress r.addr _))).respond _ _

theorem same_makeNotice (i : Fin 8) (e : ServiceEntry) (kind : NoticeKind) (s : State) :
    SameControl s (makeNotice i e kind s) := by
  unfold makeNotice
  simp only
  split
  · exact SameControl.trans {} (handIfSelf_moves _ _).same
  · exact {}

theorem disposeSlot_controlSound (i : Fin 8) (kind : NoticeKind) {s : State} (h : s.ControlSound) :
    (disposeSlot i kind s).ControlSound := by
  unfold disposeSlot
  split
  · exact h.answer _
  · split
    · exact ((h.same (same_makeNotice i _ kind s)).testDrain).answer _
    · exact h.answer _

theorem finishCommand_controlSound (slot outcome : Byte) {s : State} (h : s.ControlSound) :
    (finishCommand slot outcome s).ControlSound := by
  unfold finishCommand
  split
  · exact h.answer _
  · split
    · exact h.answer _
    · split
      · exact h.answer _
      · exact disposeSlot_controlSound _ _ h

theorem handBackCommand_controlSound (slot : Byte) {s : State} (h : s.ControlSound) : (handBackCommand slot s).ControlSound := by
  unfold handBackCommand
  split
  · exact h.answer _
  · split
    · exact h.answer _
    · exact disposeSlot_controlSound _ _ h

theorem reportCommand_controlSound {s : State} (h : s.ControlSound) : (reportCommand s).ControlSound := by
  unfold reportCommand
  split
  · exact h.answer _
  · rename_i rest _
    have dropped : SameControl s { s with reports.queue := rest } := {}
    exact ((h.same (dropped.trans (placeWaiting_moves _).same)).testDrain).respond _ _

theorem same_unmaskLine (l : Line) (s : State) : SameControl s (unmaskLine l s) := by
  unfold unmaskLine
  simp only
  split
  · exact SameControl.trans {} (serveLine_moves l _).same
  · exact {}

theorem maskCommand_controlSound (entry value : Byte) {s : State} (h : s.ControlSound) :
    (maskCommand entry value s).ControlSound := by
  unfold maskCommand
  split
  · exact h.answer _
  · split
    · split
      · exact h.answer .ok
      · split
        · exact (h.same (same_unmaskLine _ s)).answer _
        · exact h.answer _
    · exact h.answer _

theorem same_lineActivated (l : Line) (s : State) : SameControl s (lineActivated l s) := by
  unfold lineActivated
  split
  · exact {}
  · refine SameControl.trans (t := takeLevel l (activeLevel s l) s) {} ?_
    unfold lineActs
    split
    · exact (serveLine_moves l _).same
    · split
      · unfold edgeTaken
        split
        · split
          · have made := (onlyTickets_makeSourceRecord l (takeLevel l (activeLevel s l) s)).trans (onlyTickets_serveSources _)
            exact sameControl_of_eq made.control made.bus
          · exact {}
        · exact {}
        · exact {}
      · exact {}

theorem same_lineInactivated (l : Line) (s : State) : SameControl s (lineInactivated l s) := by
  unfold lineInactivated
  simp only
  split
  · split <;> exact {}
  · exact {}

theorem deadlineExpired_controlSound (tag : Tag) {s : State} (h : s.ControlSound) : (deadlineExpired tag s).ControlSound := by
  unfold deadlineExpired
  split
  · rename_i r found
    split
    · exact (h.moves (lapse_moves (findRecord_mem found).1)).testDrain
    · exact h
  · exact h

theorem same_tick (s : State) : SameControl s (tick s) where
  timer some stopped := some (by simp [tick, stopped])

theorem drainLimitExpired_controlSound {s : State} (h : s.ControlSound) : (drainLimitExpired s).ControlSound := by
  unfold drainLimitExpired
  split
  · have passed : SameControl s { s with control.drainTimer := none, control.drainPassed := true } :=
      { timer := fun some => absurd rfl some }
    exact (h.same (passed.trans (withdrawRemaining_moves _).same)).testDrain
  · exact h

theorem same_orphanPeer (sender : StationNumber) (s : State) : SameControl s (orphanPeer sender s) := by
  unfold orphanPeer
  split
  · exact (orphan_moves sender s).same
  · exact {}

theorem noticeAnswered_controlSound (n : NoticeFields) {s : State} (h : s.ControlSound) :
    (noticeAnswered n s).ControlSound := by
  unfold noticeAnswered
  split
  · split
    · rename_i r matched
      obtain ⟨mem, play⟩ := matchNotice_inPlay matched
      have accepted := (noticeAccepted_moves (wordNotice n) n.sender (s := setAnswer (.notice true false) s) mem play).same
      exact (h.same ((same_setAnswer _ s).trans accepted)).testDrain
    · exact h.same (same_setAnswer _ s)
  · exact h.same (same_setAnswer _ s)

theorem leaveRead_controlSound (sender : StationNumber) {s : State} (h : s.ControlSound) : (leaveRead sender s).ControlSound := by
  unfold leaveRead
  split
  case isFalse => exact h
  case isTrue goes =>
    have orphaned := same_orphanPeer sender s
    refine State.ControlSound.testDrain (h.same (orphaned.trans ?_))
    refine { own := fun active held => setHas_setRemove held fun same => ?_ }
    rw [orphaned.state] at active
    rw [orphaned.number] at same
    simp only [Bool.and_eq_true, goesAtLeave, bne_iff_ne, Bool.or_eq_true, same, ne_eq, not_true_eq_false, false_or,
      beq_iff_eq] at goes
    rw [goes.2.1] at active
    exact active.elim nofun nofun

/-! ### Entries to station states -/

theorem ControlLaw.station {s : State} (h : ControlLaw s) (state : s.control.state ≠ .faultNumber) : s.control.number ≠ 15 :=
  fun same => state (h.fault.1 same)

/-- Outside DRAINING there is neither LEAVE candidate nor drain-limit timer. -/
theorem ControlLaw.noDrain {s : State} (h : ControlLaw s) (state : s.control.state ≠ .draining) :
    s.control.leaveCandidate = false ∧ s.control.drainTimer = none := by
  constructor
  · by_contra present
    exact state (h.leave (by simpa using present)).1
  · by_contra some
    exact state (h.timer some)

theorem ControlLaw.locked_of_started {s : State} (h : ControlLaw s) (started : s.control.state.started = true) :
    s.control.locked = true := h.locked.2 (started_iff.1 started)

theorem enterMuted_controlLaw {s : State} (h : ControlLaw s) (sends : s.control.state.sends = true)
    (free : s.bus.ownFrame = none) : ControlLaw (enterMuted s) := by
  have started := started_iff.1 (started_of_sends sends)
  have station := h.station started.2
  unfold enterMuted
  refine ControlLaw.same ?_ (serveSources_moves _).same
  exact {
    fault := ⟨fun same => absurd same station, nofun⟩
    locked := ⟨fun _ => ⟨nofun, nofun⟩, fun _ => h.locked.2 started⟩
    valid := h.valid
    join := ⟨fun some => absurd rfl some, nofun⟩
    leave := nofun
    timer := fun some => absurd rfl some
    own := fun _ => setHas_setAdd_self _ station
    synchronised := fun _ => rfl
    sent := fun f flight => nomatch free.symm.trans flight
    errors := h.errors }

/-- A station whose frame has ended is muted before its count can pass 31 (R42). -/
theorem muteIfDue_controlSound {s : State} (h : ControlLaw s) (free : s.bus.ownFrame = none) : (muteIfDue s).ControlSound := by
  unfold muteIfDue
  split
  case isTrue due =>
    have sends := (Bool.and_eq_true_iff.1 due).1
    refine controlSound_iff.2 ⟨enterMuted_controlLaw h sends free, fun loud => ?_⟩
    rw [show (enterMuted s).control.state = .muted from congrArg Standing.state (standing_enterMuted s)] at loud
    cases loud
  case isFalse quiet =>
    refine controlSound_iff.2 ⟨h, fun sends => ?_⟩
    rw [sends, Bool.true_and, decide_eq_true_eq] at quiet
    exact Nat.le_of_lt_succ (Nat.lt_of_not_le quiet)

theorem enterOnline_controlLaw (presence : StationSet) {s : State} (h : ControlLaw s) (joining : s.control.state = .joining)
    (free : s.bus.ownFrame = none) : ControlLaw (enterOnline presence s) := by
  have station := h.station (by rw [joining]; nofun)
  obtain ⟨noLeave, noTimer⟩ := h.noDrain (by rw [joining]; nofun)
  unfold enterOnline
  refine ControlLaw.same ?_ ((handSelfNotices_moves _).same.trans (serveSources_moves _).same)
  exact {
    fault := ⟨fun same => absurd same station, nofun⟩
    locked := ⟨fun _ => ⟨nofun, nofun⟩, fun _ => h.locked_of_started (by rw [joining]; rfl)⟩
    valid := h.valid
    join := ⟨fun some => absurd rfl some, nofun⟩
    leave := fun present => nomatch noLeave.symm.trans present
    timer := fun some => absurd noTimer some
    own := fun _ => setHas_setAdd_self _ station
    synchronised := fun _ => rfl
    sent := fun f flight => nomatch free.symm.trans flight
    errors := h.errors }

theorem enterOnline_bus (presence : StationSet) (s : State) : (enterOnline presence s).bus = s.bus :=
  (onlyTickets_serveSources _).bus.trans (onlyTickets_handSelfNotices _).bus

theorem enterFaultClash_controlLaw {s : State} (h : ControlLaw s)
    (state : s.control.state = .joining ∨ s.control.state = .muted) : ControlLaw (enterFaultClash s) := by
  obtain ⟨noLeave, noTimer⟩ := h.noDrain (by rcases state with state | state <;> rw [state] <;> nofun)
  have started : s.control.state.started = true := by rcases state with state | state <;> rw [state] <;> rfl
  exact {
    fault := ⟨fun same => absurd same (h.station (started_iff.1 started).2), nofun⟩
    locked := ⟨fun _ => ⟨nofun, nofun⟩, fun _ => h.locked_of_started started⟩
    valid := h.valid
    join := ⟨fun some => absurd rfl some, nofun⟩
    leave := fun present => nomatch noLeave.symm.trans present
    timer := fun some => absurd noTimer some
    own := fun active => active.elim nofun nofun
    synchronised := nofun
    sent := nofun
    errors := h.errors }

theorem enterOffline_controlLaw {s : State} (h : ControlLaw s) (draining : s.control.state = .draining)
    (present : s.control.leaveCandidate = true) : ControlLaw (enterOffline s) where
  fault := ⟨fun same => absurd same (h.station (by rw [draining]; nofun)), nofun⟩
  locked := ⟨fun _ => ⟨nofun, nofun⟩, fun _ => h.locked_of_started (by rw [draining]; rfl)⟩
  valid := h.valid
  join := ⟨fun some => (nomatch draining.symm.trans (h.join.1 some)), nofun⟩
  leave := nofun
  timer some := absurd (h.leave present).2 some
  own active := active.elim nofun nofun
  synchronised := nofun
  sent := nofun
  errors := h.errors

theorem sends_of_answers {st : StationState} (answers : st.answers = true) : st.sends = true := by
  cases st <;> first | rfl | cases answers

/-- A station that neither is JOINING nor receives notices has no frame in flight. -/
theorem ControlLaw.silent {s : State} (h : ControlLaw s) (sends : s.control.state.sends = false) : s.bus.ownFrame = none := by
  cases flight : s.bus.ownFrame with
  | none => rfl
  | some f =>
    have sent := h.sent f flight
    unfold Candidate.sentIn at sent
    split at sent
    · rw [sent] at sends; cases sends
    · rw [sent.1] at sends; cases sends
    all_goals exact nomatch (sends_of_answers sent).symm.trans sends

theorem enterJoining_controlSound (resumed : Bool) {s : State} (h : ControlLaw s) (sends : s.control.state.sends = false)
    (state : s.control.state ≠ .faultNumber) (locked : s.control.locked = true) :
    (enterJoining resumed s).ControlSound := by
  obtain ⟨noLeave, noTimer⟩ := h.noDrain fun draining => by rw [draining] at sends; cases sends
  exact controlSound_iff.2 ⟨{
    fault := ⟨fun same => absurd same (h.station state), nofun⟩
    locked := ⟨fun _ => ⟨nofun, nofun⟩, fun _ => locked⟩
    valid := h.valid
    join := ⟨fun _ => rfl, fun _ => nofun⟩
    leave := fun present => nomatch noLeave.symm.trans present
    timer := fun some => absurd noTimer some
    own := fun active => active.elim nofun nofun
    synchronised := nofun
    sent := fun f flight => nomatch (h.silent sends).symm.trans flight
    errors := Nat.zero_le _ }, fun _ => Nat.zero_le _⟩

/-- The first JOIN locks the record it has checked (R47). -/
theorem firstJoin_controlSound {s : State} (h : s.ControlSound) (unconfigured : s.control.state = .unconfigured) :
    (firstJoin s).ControlSound := by
  obtain ⟨law, -⟩ := controlSound_iff.1 h
  obtain ⟨noLeave, noTimer⟩ := law.noDrain (by rw [unconfigured]; nofun)
  unfold firstJoin
  split
  case isFalse => exact h.answer _
  case isTrue valid =>
    exact controlSound_iff.2 ⟨{
      fault := ⟨fun same => absurd same (law.station (by rw [unconfigured]; nofun)), nofun⟩
      locked := ⟨fun _ => ⟨nofun, nofun⟩, fun _ => rfl⟩
      valid := fun _ => valid
      join := ⟨fun _ => rfl, fun _ => nofun⟩
      leave := fun present => nomatch noLeave.symm.trans present
      timer := fun some => absurd noTimer some
      own := fun active => active.elim nofun nofun
      synchronised := nofun
      sent := fun f flight => nomatch (law.silent (by rw [unconfigured]; rfl)).symm.trans flight
      errors := Nat.zero_le _ }, fun _ => Nat.zero_le _⟩

theorem joinCommand_controlSound {s : State} (h : s.ControlSound) : (joinCommand s).ControlSound := by
  obtain ⟨law, -⟩ := controlSound_iff.1 h
  have again (resumed : Bool) (sends : s.control.state.sends = false) (started : s.control.state.started = true) :
      (answer .ok (enterJoining resumed s)).ControlSound :=
    (enterJoining_controlSound resumed law sends (started_iff.1 started).2 (law.locked_of_started started)).answer _
  unfold joinCommand
  split
  case h_1 state => exact firstJoin_controlSound h state
  case h_2 state => exact again _ (by rw [state]; rfl) (by rw [state]; rfl)
  case h_3 state => exact again _ (by rw [state]; rfl) (by rw [state]; rfl)
  case h_4 state => exact again _ (by rw [state]; rfl) (by rw [state]; rfl)
  all_goals exact h.answer _

theorem restartTaken_controlSound {s : State} (h : ControlLaw s) (started : s.control.state.started = true) :
    (restartTaken s).ControlSound :=
  controlSound_iff.2 ⟨{
    fault := ⟨fun same => absurd same (h.station (started_iff.1 started).2), nofun⟩
    locked := ⟨fun _ => ⟨nofun, nofun⟩, fun _ => h.locked_of_started started⟩
    valid := h.valid
    join := ⟨fun _ => rfl, fun _ => nofun⟩
    leave := nofun
    timer := fun some => absurd rfl some
    own := fun active => active.elim nofun nofun
    synchronised := nofun
    sent := nofun
    errors := Nat.zero_le _ }, fun _ => Nat.zero_le _⟩

theorem restartCommand_controlSound {s : State} (h : s.ControlSound) : (restartCommand s).ControlSound := by
  unfold restartCommand
  split
  case isTrue started => exact (restartTaken_controlSound (controlSound_iff.1 h).1 started).answer _
  case isFalse => exact h.answer _

/-- Notices and offers in flight at a DRAIN may go on (R40, R55). -/
theorem startDrain_controlSound {s : State} (h : s.ControlSound) (online : s.control.state = .online) :
    (startDrain s).ControlSound := by
  obtain ⟨law, below⟩ := controlSound_iff.1 h
  obtain ⟨noLeave, noTimer⟩ := law.noDrain (by rw [online]; nofun)
  have sends : s.control.state.sends = true := by rw [online]; rfl
  refine controlSound_iff.2 ⟨{
    fault := ⟨fun same => absurd same (law.station (by rw [online]; nofun)), nofun⟩
    locked := ⟨fun _ => ⟨nofun, nofun⟩, fun _ => law.locked_of_started (by rw [online]; rfl)⟩
    valid := law.valid
    join := ⟨fun some => (nomatch online.symm.trans (law.join.1 some)), nofun⟩
    leave := fun present => nomatch noLeave.symm.trans present
    timer := fun _ => rfl
    own := fun _ => law.own (.inl (by rw [online]; rfl))
    synchronised := fun _ => rfl
    sent := fun f flight => ?_
    errors := law.errors }, fun _ => below sends⟩
  have sent := law.sent f flight
  unfold Candidate.sentIn at sent ⊢
  cases candidate : f.candidate with
  | join => rw [candidate, online] at sent; cases sent
  | leave => rw [candidate, online] at sent; cases sent.1
  | notice => rfl
  | offer => rfl

theorem drainCommand_controlSound {s : State} (h : s.ControlSound) : (drainCommand s).ControlSound := by
  unfold drainCommand
  split
  case isFalse => exact h.answer _
  case isTrue online =>
    have drained := (startDrain_controlSound h online).moves (withdrawUnoffered_moves _)
    have returned : (returnWaiting (withdrawUnoffered (startDrain s))).ControlSound := drained
    have handed := returned.moves (handSelfReturns_moves (s.work.inbound.filter fun r => r.state == .waiting) _)
    exact (State.ControlSound.testDrain (s := discardLatches _) handed).answer _

theorem joinRead_controlSound (sender : StationNumber) (resumed clash : Bool) {s : State} (h : s.ControlSound) :
    (joinRead sender resumed clash s).ControlSound := by
  unfold joinRead
  split
  · exact h
  · split
    case isTrue own =>
      exact controlSound_iff.2 ⟨enterFaultClash_controlLaw (controlSound_iff.1 h).1 own.2, nofun⟩
    case isFalse =>
      split
      · exact h.same (same_addToRoster sender s)
      · exact (h.same ((same_orphanPeer sender s).trans (same_addToRoster sender _))).testDrain

/-! ### Own frames -/

/-- A frame starts whose candidate the station may send. -/
theorem startFrame_controlSound {c : Candidate} (f : Frame) {s : State} (h : s.ControlSound) (sent : c.sentIn s) :
    (startFrame c f s).ControlSound := by
  obtain ⟨law, below⟩ := controlSound_iff.1 h
  refine controlSound_iff.2 ⟨?_, below⟩
  exact { law with
    sent := fun f flight => by cases flight; exact sent }

theorem chooseOffer_controlSound (tags : List Tag) {s : State} (h : s.ControlSound) (answers : s.control.state.answers = true) :
    (chooseOffer tags s).ControlSound := by
  induction tags generalizing s with
  | nil => exact h
  | cons tag rest ih =>
    unfold chooseOffer
    split
    · exact ih h answers
    · rename_i r found
      split
      · split
        · exact startFrame_controlSound _ (s := putRecord _ s) h answers
        · have resolved := (resolveRecord_moves .noPeer (findRecord_mem found).1).same
          exact ih (h.same resolved) (by rwa [resolved.state])
      · exact ih h answers

theorem answers_of_sends {st : StationState} (sends : st.sends = true) (joined : st ≠ .joining) : st.answers = true := by
  cases st <;> first | exact absurd rfl joined | rfl | cases sends

theorem chooseFrame_controlSound {s : State} (h : s.ControlSound) (sends : s.control.state.sends = true) :
    (chooseFrame s).ControlSound := by
  unfold chooseFrame
  split
  case isTrue joining =>
    split
    · exact startFrame_controlSound _ h joining
    · exact h
  case isFalse joined =>
    have answers := answers_of_sends sends joined
    split
    case isTrue present => exact startFrame_controlSound _ h ⟨((controlSound_iff.1 h).1.leave present).1, present⟩
    case isFalse =>
      split
      · exact startFrame_controlSound _ h answers
      · exact chooseOffer_controlSound _ h answers

/-- The own frame over, its count may have risen by 8 (R41). -/
theorem endOwnFrame_controlLaw {errors : Nat} {s : State} (h : ControlLaw s) (bound : errors ≤ 39) :
    ControlLaw (endOwnFrame errors s) :=
  { h with
    sent := nofun
    errors := bound }

/-- The station sends, so its count was below 32; a broken frame adds 8. -/
theorem State.ControlSound.errorsBound {s : State} (h : s.ControlSound) {c : Candidate} (own : ownCandidate s = some c) :
    errorsAfterBad s.bus.errorCount ≤ 39 ∧ errorsAfterClean s.bus.errorCount ≤ 39 ∧ s.bus.errorCount ≤ 39 := by
  have below := (controlSound_iff.1 h).2 (ownCandidate_sends own)
  unfold errorsAfterBad errorsAfterClean Config.errorStep
  omega

theorem offerFrameEnded_controlSound (fate : OfferFate) {s : State} (h : s.ControlSound) :
    (offerFrameEnded fate s).ControlSound := by
  obtain ⟨law, -⟩ := controlSound_iff.1 h
  unfold offerFrameEnded
  split
  case h_1 tag own =>
    obtain ⟨bad, clean, same⟩ := h.errorsBound own
    have bound : offerErrors s.bus.errorCount fate ≤ 39 := by cases fate <;> assumption
    set ended := endOwnFrame (offerErrors s.bus.errorCount fate) s
    have dropped : SameControl ended (dropHand fate ended) := by cases fate <;> exact {}
    have learned : SameControl (dropHand fate ended) (learnClaimant fate (dropHand fate ended)) := by
      unfold learnClaimant
      split
      · exact same_addToRoster _ _
      · exact {}
    have decided := (dropped.trans learned).trans (offerEnded_moves tag fate _).same
    refine State.ControlSound.testDrain (muteIfDue_controlSound ((endOwnFrame_controlLaw law bound).same decided) ?_)
    by_contra flight
    obtain ⟨f, flying⟩ := Option.ne_none_iff_exists'.1 flight
    obtain ⟨_, before, _⟩ := decided.sent f flying
    cases before
  all_goals exact h

theorem noticeFrameEnded_controlSound (fate : NoticeFate) {s : State} (h : s.ControlSound) :
    (noticeFrameEnded fate s).ControlSound := by
  obtain ⟨law, -⟩ := controlSound_iff.1 h
  unfold noticeFrameEnded
  split
  case h_1 ref own =>
    obtain ⟨bad, clean, same⟩ := h.errorsBound own
    have bound : noticeErrors s.bus.errorCount fate ≤ 39 := by cases fate <;> assumption
    have ended := endOwnFrame_controlLaw law bound
    simp only
    refine State.ControlSound.testDrain ?_
    split
    · rename_i n _
      have fared := noticeEnded_moves n fate (endOwnFrame (noticeErrors s.bus.errorCount fate) s)
      exact muteIfDue_controlSound (ended.same fared.same) (by rw [fared.onlyTickets.bus]; rfl)
    · exact muteIfDue_controlSound ended rfl
  all_goals exact h

theorem joinFrameEnded_controlSound (fate : JoinFate) {s : State} (h : s.ControlSound) :
    (joinFrameEnded fate s).ControlSound := by
  obtain ⟨law, -⟩ := controlSound_iff.1 h
  unfold joinFrameEnded
  split
  case h_1 own =>
    obtain ⟨bad, clean, same⟩ := h.errorsBound own
    have bound : joinErrors s.bus.errorCount fate ≤ 39 := by cases fate <;> assumption
    have joining : s.control.state = .joining := h.sentIn own
    have ended := endOwnFrame_controlLaw law bound
    unfold joinEnded
    split
    case h_1 presence =>
      exact muteIfDue_controlSound (enterOnline_controlLaw presence ended joining rfl) (by rw [enterOnline_bus]; rfl)
    case h_2 => exact muteIfDue_controlSound (enterFaultClash_controlLaw ended (.inl joining)) rfl
    all_goals exact muteIfDue_controlSound ended rfl
  all_goals exact h

theorem leaveFrameEnded_controlSound (fate : LeaveFate) {s : State} (h : s.ControlSound) :
    (leaveFrameEnded fate s).ControlSound := by
  obtain ⟨law, -⟩ := controlSound_iff.1 h
  unfold leaveFrameEnded
  split
  case h_1 own =>
    obtain ⟨bad, clean, same⟩ := h.errorsBound own
    have bound : leaveErrors s.bus.errorCount fate ≤ 39 := by cases fate <;> assumption
    obtain ⟨draining, present⟩ : s.control.state = .draining ∧ s.control.leaveCandidate = true := h.sentIn own
    have ended := endOwnFrame_controlLaw law bound
    unfold leaveEnded
    split
    case h_1 => exact muteIfDue_controlSound (enterOffline_controlLaw ended draining present) rfl
    all_goals exact muteIfDue_controlSound ended rfl
  all_goals exact h

/-! ### Every command -/

theorem State.ControlSound.fromStation {sender : StationNumber} {f : State → State} {s : State} (h : s.ControlSound)
    (acts : (f s).ControlSound) : (fromStation sender f s).ControlSound := by
  unfold Machine.fromStation
  split
  · exact acts
  · exact h

theorem State.ControlSound.whenReceiving {f : State → State} {s : State} (h : s.ControlSound) (acts : (f s).ControlSound) :
    (whenReceiving f s).ControlSound := by
  unfold Machine.whenReceiving
  split
  · exact acts
  · exact h

theorem effect_controlSound (c : Instr) {s : State} (h : s.ControlSound) : (effect c s).ControlSound := by
  cases c with
  | resetAssert =>
    have stopped : (stopBus s).ControlSound := h.same (same_stopBus s)
    exact stopped
  | resetRelease straps =>
    obtain ⟨-, -, control, -⟩ := release_sound straps s
    exact control
  | configWrite g f v => exact writeConfig_controlSound g f v h
  | configRead g f =>
    change (readConfig g f s).ControlSound
    unfold readConfig
    split
    · exact h.answer _
    · exact h.respond _ _
  | join => exact joinCommand_controlSound h
  | drain => exact drainCommand_controlSound h
  | restart => exact restartCommand_controlSound h
  | submit c l p set a => exact submitCommand_controlSound c l p set a h
  | cancel tag => exact cancelCommand_controlSound tag h
  | query tag =>
    change (queryCommand tag s).ControlSound
    unfold queryCommand
    split
    · exact h.answer _
    · exact h.respond _ _
  | take => exact takeCommand_controlSound h
  | finish i o => exact finishCommand_controlSound i o h
  | handBack i => exact handBackCommand_controlSound i h
  | report => exact reportCommand_controlSound h
  | status => exact h
  | mask e v => exact maskCommand_controlSound e v h
  | touch a =>
    change (touchCommand a s).ControlSound
    unfold touchCommand
    split
    · exact (h.same (same_useAddress _ s)).answer _
    · exact h.answer _
  | forget =>
    change (forgetCommand s).ControlSound
    unfold forgetCommand
    split
    · exact h
    · exact h.answer _
  | roster => exact h
  | unknownCommandByte _ => exact h
  | transactionDiscarded => exact h
  | lineBecomesActive l => exact h.same (same_lineActivated l s)
  | lineBecomesInactive l => exact h.same (same_lineInactivated l s)
  | deadlineTick => exact h.same (same_tick s)
  | backoffExpiry tag =>
    change (backoffExpired tag s).ControlSound
    unfold backoffExpired
    split
    · split <;> exact h
    · exact h
  | deadlineExpiry tag => exact deadlineExpired_controlSound tag h
  | drainLimitExpiry => exact drainLimitExpired_controlSound h
  | synchronisationQuiet =>
    change (quietSeen s).ControlSound
    unfold quietSeen
    split
    case isTrue quiet =>
      obtain ⟨law, below⟩ := controlSound_iff.1 h
      exact controlSound_iff.2 ⟨{ law with synchronised := fun _ => (Bool.and_eq_true_iff.1 quiet).1 }, below⟩
    case isFalse => exact h
  | unreadableKind _ => exact h.whenReceiving (h.same (same_loseSynchronisation s))
  | frameStart =>
    change (if freeToStart s then testDrain (chooseFrame { s with claim.offerInHand := none }) else s).ControlSound
    split
    case isTrue free =>
      simp only [freeToStart, Bool.and_eq_true] at free
      exact (chooseFrame_controlSound (s := { s with claim.offerInHand := none }) h free.1.1.1).testDrain
    case isFalse => exact h
  | offerValidated o => exact h.fromStation (f := fun s => { s with claim.offerInHand := some (decideOffer o s) }) h
  | claimAsRead bid claimant confirm => exact h.whenReceiving (h.same (same_claimRead bid claimant confirm s))
  | noticeReceived n =>
    refine h.fromStation (f := fun s => if n.target = s.control.number then noticeAnswered n s else s) ?_
    split
    · exact noticeAnswered_controlSound n h
    · exact h
  | noticeSenderLearned sender =>
    exact h.fromStation (f := fun s => setAnswer .none (addToRoster sender s))
      (h.same ((same_addToRoster sender s).trans (same_setAnswer _ _)))
  | joinAnswer sender => exact h.fromStation (f := fun s => setAnswer _ s) h
  | joinReceived sender resumed clash =>
    exact h.fromStation (f := fun s => joinRead sender resumed clash (setAnswer .none s))
      (joinRead_controlSound sender resumed clash (s := setAnswer .none s) h)
  | leaveReceived sender =>
    exact h.fromStation
      (f := fun s => leaveRead sender (setAnswer (if s.control.state.sends then .acknowledge else .none) s))
      (leaveRead_controlSound sender (s := setAnswer _ s) h)
  | offerFrameEnd fate => exact offerFrameEnded_controlSound fate h
  | noticeFrameFate fate => exact noticeFrameEnded_controlSound fate h
  | joinFrameEnd fate => exact joinFrameEnded_controlSound fate h
  | leaveFrameEnd fate => exact leaveFrameEnded_controlSound fate h
  | checkFoundBad => exact h.whenReceiving h

/-- Settles O57: on an empty queue nothing of the law moves, and each command keeps it. -/
theorem controlStaysSound : Obligations.ControlStaysSound := by
  intro s t h step
  rcases step_cases step with ⟨-, rfl⟩ | ⟨c, rest, -, run⟩
  · exact h.same (same_idle s)
  · rcases exec_cases run with rfl | rfl
    · exact h
    · exact effect_controlSound c (s := { s with pending := rest }) h

end Sys2Proof.Machine
end

section
/-! PROOFS. The LEAVE candidate stands exactly when the drain is complete (R56): a command that changes a collection ends with the
drain test, and where the drain is complete already no command undoes it, for a station in DRAINING makes no record and claims
nothing. -/

namespace Sys2Proof.Machine

/-! ### A complete drain -/

theorem drainComplete_iff {s : State} : drainComplete s = true ↔
    s.work.inbound = [] ∧ (∀ i, s.work.slots.get i = none) ∧ ∀ r ∈ s.offer.records, r.state.inPlay = false := by
  have slots : s.work.slots.toList.all Option.isNone = true ↔ ∀ i, s.work.slots.get i = none := by
    rw [List.all_eq_true]
    constructor
    · exact fun h i => by simpa using h _ (vector_mem_toList.2 ⟨i, rfl⟩)
    · intro h x mem
      obtain ⟨i, rfl⟩ := vector_mem_toList.1 mem
      rw [h i]
      rfl
  unfold drainComplete
  rw [Bool.and_eq_true, Bool.and_eq_true, List.isEmpty_iff, slots, List.all_eq_true, and_assoc]
  refine and_congr_right' (and_congr_right' (forall₂_congr fun r _ => ?_))
  cases r.state <;> simp [RecordState.inPlay]

variable {s : State}

theorem heldNotices_of_complete (complete : drainComplete s = true) : heldNotices s = [] := by
  obtain ⟨inbound, slots, -⟩ := drainComplete_iff.1 complete
  unfold heldNotices
  simp [inbound, slots]

theorem findNotice_of_complete (complete : drainComplete s = true) (ref : CopyRef) : findNotice ref s = none := by
  unfold findNotice
  rw [heldNotices_of_complete complete]
  rfl

theorem matchNotice_of_complete (complete : drainComplete s = true) (tag : Tag) (generation : Generation)
    (sender : StationNumber) : matchNotice tag generation sender s = none := by
  obtain ⟨-, -, ended⟩ := drainComplete_iff.1 complete
  cases matched : matchNotice tag generation sender s with
  | none => rfl
  | some r =>
    obtain ⟨mem, play⟩ := matchNotice_inPlay matched
    exact nomatch (ended r mem).symm.trans play

theorem tagsWhere_of_complete (complete : drainComplete s = true) {p : OutRecord → Bool}
    (play : ∀ r, p r = true → r.state.inPlay = true) : tagsWhere p s = [] := by
  obtain ⟨-, -, ended⟩ := drainComplete_iff.1 complete
  unfold tagsWhere
  rw [List.map_eq_nil_iff, List.filter_eq_nil_iff]
  exact fun r mem chosen => nomatch (ended r mem).symm.trans (play r chosen)

theorem orphanPeer_of_complete (complete : drainComplete s = true) (sender : StationNumber) : orphanPeer sender s = s := by
  have play (r : OutRecord) (chosen : r.state.isOutstandingWith sender = true) : r.state.inPlay = true := by
    rw [isOutstandingWith_iff] at chosen
    obtain ⟨_, outstanding⟩ := chosen
    rw [outstanding]
    rfl
  unfold orphanPeer orphan
  rw [tagsWhere_of_complete complete play]
  split <;> rfl

/-! ### A station that makes no tickets -/

theorem serveSource_silent (silent : s.control.state.creates = false) (l : Line) : serveSource l s = s := by
  unfold serveSource waitingSource
  rw [silent]
  rfl

theorem serveSources_silent (silent : s.control.state.creates = false) : serveSources s = s :=
  serveSources_none fun l => by
    unfold waitingSource
    rw [silent]
    rfl

theorem placeFreed_silent (silent : s.control.state.creates = false) (source : Source) : placeFreed source s = s := by
  cases source with
  | soft => exact serveSources_silent silent
  | line l =>
    change serveSources (serveSource l s) = s
    rw [serveSource_silent silent, serveSources_silent silent]

/-! ### What keeps the law -/

/-- Nothing of the law has moved. -/
theorem State.DrainSound.same {t : State} (h : s.DrainSound) (same : SameControl s t)
    (complete : s.control.state = .draining → drainComplete t = drainComplete s) : t.DrainSound := by
  intro draining
  rw [same.state] at draining
  rw [same.leave, complete draining]
  exact h draining

theorem State.DrainSound.answer (h : s.DrainSound) (code : ResponseCode) : (answer code s).DrainSound := h

theorem State.DrainSound.respond (h : s.DrainSound) (code : ResponseCode) (bytes : List Byte) :
    (respond code bytes s).DrainSound := h

theorem drainSound_of_state {t : State} {st : StationState} (state : t.control.state = st) (other : st ≠ .draining) :
    t.DrainSound := fun draining => absurd (state.symm.trans draining) other

theorem drainComplete_testDrain (s : State) : drainComplete (testDrain s) = drainComplete s := by
  unfold testDrain
  split <;> rfl

/-- The test makes the law hold where a candidate present stands on a complete drain. -/
theorem testDrain_drainSound (h : s.control.state = .draining → s.control.leaveCandidate = true → drainComplete s = true) :
    (testDrain s).DrainSound := by
  intro draining
  have state : (testDrain s).control.state = s.control.state := congrArg Standing.state (standing_testDrain s)
  rw [state] at draining
  rw [drainComplete_testDrain]
  unfold testDrain
  split
  case isTrue holds => exact ⟨fun _ => holds.2.2, fun _ => rfl⟩
  case isFalse fails =>
    refine ⟨h draining, fun complete => ?_⟩
    by_contra absent
    exact fails ⟨draining, by simpa using absent, complete⟩

/-- A command that ends with the test keeps the law where it does not undo a complete drain. -/
theorem State.DrainSound.tested {t : State} (h : s.DrainSound) (same : SameControl s t)
    (complete : s.control.state = .draining → drainComplete s = true → drainComplete t = true) : (testDrain t).DrainSound := by
  refine testDrain_drainSound fun draining present => ?_
  rw [same.state] at draining
  rw [same.leave] at present
  exact complete draining ((h draining).1 present)

theorem muteIfDue_drainSound (h : s.DrainSound) : (muteIfDue s).DrainSound := by
  unfold muteIfDue
  split
  · exact drainSound_of_state (congrArg Standing.state (standing_enterMuted s)) nofun
  · exact h

/-- The same with the entry to MUTED between. -/
theorem State.DrainSound.muted {t : State} (h : s.DrainSound) (same : SameControl s t)
    (complete : s.control.state = .draining → drainComplete s = true → drainComplete t = true) :
    (testDrain (muteIfDue t)).DrainSound := by
  unfold muteIfDue
  split
  · have state := congrArg Standing.state ((standing_testDrain (enterMuted t)).trans (standing_enterMuted t))
    exact drainSound_of_state state nofun
  · exact h.tested same complete

theorem not_creates_of_draining (draining : s.control.state = .draining) : s.control.state.creates = false := by
  rw [draining]
  rfl

/-! ### Commands on tickets and copies -/

theorem cancelCommand_drainSound (tag : Tag) (h : s.DrainSound) : (cancelCommand tag s).DrainSound := by
  unfold cancelCommand
  split
  · exact h.answer _
  · split
    · exact h.answer _
    · rename_i r found
      have mem := (findRecord_mem found).1
      have resolved (play : r.state.inPlay = true) : (answer .ok (testDrain (resolveRecord r .cancelled s))).DrainSound := by
        refine State.DrainSound.answer (h.tested (resolveRecord_moves .cancelled mem).same fun _ complete => ?_) _
        exact nomatch ((drainComplete_iff.1 complete).2.2 r mem).symm.trans play
      unfold cancelRecord
      split
      case h_1 state => exact resolved (by rw [state]; rfl)
      case h_2 state => exact resolved (by rw [state]; rfl)
      case h_4 state => exact resolved (by rw [state]; rfl)
      case h_5 => exact h.answer _
      case h_3 requested offering =>
        refine State.DrainSound.answer (h.same (t := putRecord { r with state := .offering true } s) {} fun _ => ?_) .ok
        refine Bool.eq_iff_iff.2 ⟨fun complete => ?_, fun complete => ?_⟩
        · have put : { r with state := .offering true } ∈ (putRecord { r with state := .offering true } s).offer.records :=
            List.mem_map.2 ⟨r, mem, by simp⟩
          exact nomatch (drainComplete_iff.1 complete).2.2 _ put
        · exact nomatch ((drainComplete_iff.1 complete).2.2 r mem).symm.trans (congrArg RecordState.inPlay offering)

theorem submitCommand_drainSound (cls level flag : Byte) (set : BitVec 16) (addr : Address) (h : s.DrainSound) :
    (submitCommand cls level flag set addr s).DrainSound := by
  unfold submitCommand
  split
  · exact h.answer _
  · rename_i creates
    split
    · exact h.answer _
    · split
      · exact h.answer _
      · have made := onlyTickets_createAndServe (submitFields cls level flag set addr) s
        refine State.DrainSound.respond (h.same (sameControl_of_eq made.control made.bus) fun draining => ?_) _ _
        exact absurd (by rw [not_creates_of_draining draining]; rfl) creates

theorem takeRecord_notComplete (i : Fin 8) (r : InRecord) (s : State) : drainComplete (takeRecord i r s) = false := by
  have moved : (takeRecord i r s).work.slots.get i = some (takenEntry r) := by
    have slots : (takeRecord i r s).work.slots = s.work.slots.set i (some (takenEntry r)) := by
      unfold takeRecord useAddress
      split <;> rfl
    rw [slots, vector_get_set, if_pos rfl]
  by_contra complete
  exact nomatch moved.symm.trans ((drainComplete_iff.1 (by simpa using complete)).2.1 i)

theorem takeCommand_drainSound (h : s.DrainSound) : (takeCommand s).DrainSound := by
  unfold takeCommand
  split
  · exact h.answer _
  · split
    · exact h.answer _
    · split
      · exact h.answer _
      · rename_i i _ _ r first
        have moved : SameControl s (setSlot i (some (takenEntry r)) (freeCopy (.inbound r.originator r.tag) s)) := {}
        refine State.DrainSound.respond (h.same (moved.trans (same_useAddress r.addr _)) fun _ => ?_) _ _
        refine (takeRecord_notComplete i r s).trans (Eq.symm ?_)
        by_contra complete
        have held := List.mem_of_find?_eq_some first
        rw [(drainComplete_iff.1 (by simpa using complete)).1] at held
        cases held

theorem disposeSlot_drainSound (i : Fin 8) (kind : NoticeKind) (h : s.DrainSound) : (disposeSlot i kind s).DrainSound := by
  unfold disposeSlot
  split
  · exact h.answer _
  · rename_i e held
    split
    · refine State.DrainSound.answer (h.tested (same_makeNotice i e kind s) fun _ complete => ?_) _
      exact nomatch held.symm.trans ((drainComplete_iff.1 complete).2.1 i)
    · exact h.answer _

theorem finishCommand_drainSound (slot outcome : Byte) (h : s.DrainSound) : (finishCommand slot outcome s).DrainSound := by
  unfold finishCommand
  split
  · exact h.answer _
  · split
    · exact h.answer _
    · split
      · exact h.answer _
      · exact disposeSlot_drainSound _ _ h

theorem handBackCommand_drainSound (slot : Byte) (h : s.DrainSound) : (handBackCommand slot s).DrainSound := by
  unfold handBackCommand
  split
  · exact h.answer _
  · split
    · exact h.answer _
    · exact disposeSlot_drainSound _ _ h

theorem freeCopy_complete (ref : CopyRef) (complete : drainComplete s = true) : drainComplete (freeCopy ref s) = true := by
  obtain ⟨inbound, slots, ended⟩ := drainComplete_iff.1 complete
  refine drainComplete_iff.2 ?_
  cases ref with
  | slot j =>
    refine ⟨inbound, fun i => ?_, ended⟩
    change (s.work.slots.set j none).get i = none
    rw [vector_get_set, slots i, ite_self]
  | inbound o t => exact ⟨by simp [freeCopy, inbound], slots, ended⟩

/-- A station that makes no tickets places a waiting report and stays complete. -/
theorem placeWaiting_complete (silent : s.control.state.creates = false) (complete : drainComplete s = true) :
    drainComplete (placeWaiting s) = true := by
  unfold placeWaiting
  split
  case isFalse => exact complete
  case isTrue =>
    split
    case h_2 => exact complete
    case h_1 item _ =>
      obtain ⟨inbound, slots, ended⟩ := drainComplete_iff.1 complete
      obtain ⟨k, item⟩ := item
      cases item with
      | record r res =>
        change drainComplete (placeFreed r.source (leaveList r (pushReport (recordReport r res) s))) = true
        have left := onlyTickets_leaveList r (pushReport (recordReport r res) s)
        rw [placeFreed_silent (by rw [left.control]; exact silent)]
        refine drainComplete_iff.2 ⟨by rw [left.work]; exact inbound, fun i => by rw [left.work]; exact slots i, ?_⟩
        rw [leaveList_records]
        exact fun x mem => ended x (mem_dropRecord.1 mem).1
      | copy n how =>
        exact freeCopy_complete (s := pushReport (copyReport n how) s) n.ref complete

theorem reportCommand_drainSound (h : s.DrainSound) : (reportCommand s).DrainSound := by
  unfold reportCommand
  split
  · exact h.answer _
  · rename_i rest _
    have dropped : SameControl s { s with reports.queue := rest } := {}
    refine State.DrainSound.respond (h.tested (dropped.trans (placeWaiting_moves _).same) fun draining complete => ?_) _ _
    exact placeWaiting_complete (s := { s with reports.queue := rest }) (not_creates_of_draining draining) complete

/-! ### Lines and masks -/

theorem unmaskLine_drainSound (l : Line) (h : s.DrainSound) : (unmaskLine l s).DrainSound := by
  refine h.same (same_unmaskLine l s) fun draining => ?_
  unfold unmaskLine
  simp only
  split
  · have silent : (setEntry l { entryAt s l with masked := false, hold := false } s).control.state.creates = false :=
      not_creates_of_draining draining
    rw [serveSource_silent silent, serveSources_silent silent]
    rfl
  · rfl

theorem maskCommand_drainSound (entry value : Byte) (h : s.DrainSound) : (maskCommand entry value s).DrainSound := by
  unfold maskCommand
  split
  · exact h.answer _
  · split
    · split
      · exact h.answer .ok
      · split
        · exact (unmaskLine_drainSound _ h).answer _
        · exact h.answer _
    · exact h.answer _

theorem lineActivated_drainSound (l : Line) (h : s.DrainSound) : (lineActivated l s).DrainSound := by
  refine h.same (same_lineActivated l s) fun draining => ?_
  have silent : (takeLevel l (activeLevel s l) s).control.state.creates = false := not_creates_of_draining draining
  unfold lineActivated
  split
  · rfl
  · unfold lineActs
    split
    · rw [serveSource_silent silent, serveSources_silent silent]
      rfl
    · rw [silent]
      rfl

/-! ### Timers -/

theorem drainComplete_tick (s : State) : drainComplete (tick s) = drainComplete s := by
  refine Bool.eq_iff_iff.2 ?_
  rw [drainComplete_iff, drainComplete_iff]
  refine and_congr_right' (and_congr_right' ?_)
  simp only [tick, List.forall_mem_map, tickState_inPlay]

/-- A record in play put in the place of a record in play. -/
theorem drainComplete_putRecord {r x : OutRecord} (mem : x ∈ s.offer.records) (tag : r.tag = x.tag)
    (before : x.state.inPlay = true) (after : r.state.inPlay = true) : drainComplete (putRecord r s) = drainComplete s := by
  have put : r ∈ (putRecord r s).offer.records := List.mem_map.2 ⟨x, mem, by simp [tag]⟩
  refine Bool.eq_iff_iff.2 ⟨fun complete => ?_, fun complete => ?_⟩
  · exact nomatch ((drainComplete_iff.1 complete).2.2 r put).symm.trans after
  · exact nomatch ((drainComplete_iff.1 complete).2.2 x mem).symm.trans before

theorem backoffExpired_drainSound (tag : Tag) (h : s.DrainSound) : (backoffExpired tag s).DrainSound := by
  unfold backoffExpired
  split
  · rename_i r found
    split
    case isTrue due =>
      exact h.same {} fun _ => drainComplete_putRecord (findRecord_mem found).1 rfl (by rw [due]; rfl) rfl
    case isFalse => exact h
  · exact h

theorem inPlay_of_deadlineDue {st : RecordState} (due : st.deadlineDue = true) : st.inPlay = true := by
  cases st with
  | outstanding => rfl
  | _ => cases due

theorem deadlineExpired_drainSound (tag : Tag) (h : s.DrainSound) : (deadlineExpired tag s).DrainSound := by
  unfold deadlineExpired
  split
  · rename_i r found
    have mem := (findRecord_mem found).1
    split
    case isTrue due =>
      refine h.tested (lapse_moves mem).same fun _ complete => ?_
      exact nomatch ((drainComplete_iff.1 complete).2.2 r mem).symm.trans (inPlay_of_deadlineDue due)
    case isFalse => exact h
  · exact h

/-- The timer that runs out was running, so no LEAVE candidate was present. -/
theorem drainLimitExpired_drainSound (law : ControlLaw s) (h : s.DrainSound) : (drainLimitExpired s).DrainSound := by
  unfold drainLimitExpired
  split
  case isFalse => exact h
  case isTrue due =>
    have passed : SameControl s { s with control.drainTimer := none, control.drainPassed := true } :=
      { timer := fun some => absurd rfl some }
    refine h.tested (passed.trans (withdrawRemaining_moves _).same) fun draining complete => ?_
    have stopped := (law.leave ((h draining).2 complete)).2
    exact nomatch stopped.symm.trans due.2

/-! ### The bus -/

theorem noticeAnswered_drainSound (n : NoticeFields) (h : s.DrainSound) : (noticeAnswered n s).DrainSound := by
  unfold noticeAnswered
  split
  · split
    · rename_i r matched
      obtain ⟨mem, play⟩ := matchNotice_inPlay matched
      have accepted := (noticeAccepted_moves (wordNotice n) n.sender (s := setAnswer (.notice true false) s) mem play).same
      refine h.tested ((same_setAnswer _ s).trans accepted) fun _ complete => ?_
      rw [matchNotice_of_complete complete] at matched
      cases matched
    · exact h
  · exact h

/-- A claim is committed in ONLINE only, so in DRAINING the collections stay. -/
theorem commitClaim_draining (h : OfferInHand) (draining : s.control.state = .draining) : commitClaim h s = s := by
  unfold commitClaim
  rw [draining]
  rfl

theorem claimRead_drainSound (bid : BitVec 6) (claimant : StationNumber) (confirm : Bool) (h : s.DrainSound) :
    (claimRead bid claimant confirm s).DrainSound := by
  refine h.same (same_claimRead bid claimant confirm s) fun draining => ?_
  unfold claimRead
  split
  · rfl
  · rename_i hand _
    simp only
    split
    · split
      · have unclaimed := commitClaim_draining hand (s := addToRoster claimant
          { addToRoster hand.offer.sender s with claim.offerInHand := none, bus.answer := .none }) draining
        exact (congrArg drainComplete unclaimed).trans rfl
      · rfl
    · rfl

theorem joinRead_drainSound (sender : StationNumber) (resumed clash : Bool) (h : s.DrainSound) :
    (joinRead sender resumed clash s).DrainSound := by
  unfold joinRead
  split
  · exact h
  · split
    · exact drainSound_of_state (t := enterFaultClash s) rfl nofun
    · split
      · exact h
      · refine h.tested ((same_orphanPeer sender s).trans (same_addToRoster sender _)) fun _ complete => ?_
        rw [orphanPeer_of_complete complete]
        exact complete

theorem leaveRead_drainSound (sender : StationNumber) (h : s.DrainSound) : (leaveRead sender s).DrainSound := by
  unfold leaveRead
  split
  · have orphaned := same_orphanPeer sender s
    refine testDrain_drainSound fun draining present => ?_
    have complete := (h (orphaned.state.symm.trans draining)).1 (orphaned.leave.symm.trans present)
    change drainComplete (orphanPeer sender s) = true
    rw [orphanPeer_of_complete complete]
    exact complete
  · exact h

/-! ### Own frames -/

theorem chooseOffer_control (tags : List Tag) (s : State) :
    (chooseOffer tags s).control = s.control := by
  induction tags generalizing s with
  | nil => rfl
  | cons tag rest ih =>
    unfold chooseOffer
    split
    · exact ih s
    · split
      · split
        · rfl
        · rw [ih, (onlyTickets_resolveRecord _ _ _).control]
      · exact ih s

theorem chooseFrame_control (s : State) : (chooseFrame s).control = s.control := by
  unfold chooseFrame
  split
  · split <;> rfl
  · split
    · rfl
    · split
      · rfl
      · exact chooseOffer_control _ s

theorem chooseFrame_leave (draining : s.control.state = .draining) (present : s.control.leaveCandidate = true) :
    chooseFrame s = startFrame .leave (.leave s.control.number) s := by
  unfold chooseFrame
  rw [draining, present]
  rfl

theorem frameStart_drainSound (h : s.DrainSound) :
    (if freeToStart s then testDrain (chooseFrame { s with claim.offerInHand := none }) else s).DrainSound := by
  split
  case isFalse => exact h
  case isTrue =>
    refine testDrain_drainSound fun draining present => ?_
    rw [chooseFrame_control] at draining present
    have complete := (h draining).1 present
    rw [chooseFrame_leave draining present]
    exact complete

theorem offerEnded_of_complete (complete : drainComplete s = true) (tag : Tag) (fate : OfferFate) : offerEnded tag fate s = s := by
  unfold offerEnded
  split
  · rfl
  · rename_i r found
    have ended := (drainComplete_iff.1 complete).2.2 r (findRecord_mem found).1
    split
    case h_1 offering => rw [offering] at ended; cases ended
    all_goals rfl

theorem same_dropHand (fate : OfferFate) (s : State) : SameControl s (dropHand fate s) := by cases fate <;> exact {}

theorem same_learnClaimant (fate : OfferFate) (s : State) : SameControl s (learnClaimant fate s) := by
  unfold learnClaimant
  split
  · exact same_addToRoster _ _
  · exact {}

theorem collections_learnClaimant_dropHand (fate : OfferFate) (s : State) :
    drainComplete (learnClaimant fate (dropHand fate s)) = drainComplete s := by
  unfold learnClaimant
  split <;> cases fate <;> rfl

theorem offerFrameEnded_drainSound (fate : OfferFate) (h : s.DrainSound) : (offerFrameEnded fate s).DrainSound := by
  unfold offerFrameEnded
  split
  case h_1 tag own =>
    set ended := endOwnFrame (offerErrors s.bus.errorCount fate) s
    have before : ended.DrainSound := h
    have learned := (same_dropHand fate ended).trans (same_learnClaimant fate _)
    refine before.muted (learned.trans (offerEnded_moves tag fate _).same) fun _ complete => ?_
    have still := (collections_learnClaimant_dropHand fate ended).trans complete
    rw [offerEnded_of_complete still]
    exact still
  all_goals exact h

theorem noticeFrameEnded_drainSound (fate : NoticeFate) (h : s.DrainSound) : (noticeFrameEnded fate s).DrainSound := by
  unfold noticeFrameEnded
  split
  case h_1 ref own =>
    set ended := endOwnFrame (noticeErrors s.bus.errorCount fate) s
    have before : ended.DrainSound := h
    simp only
    split
    · rename_i n found
      refine before.muted (noticeEnded_moves n fate ended).same fun _ complete => ?_
      rw [findNotice_of_complete complete] at found
      cases found
    · exact before.muted {} fun _ => id
  all_goals exact h

/-- A JOIN is sent in JOINING, and its end leaves the station there, ONLINE, in FAULT(CLASH) or MUTED. -/
theorem joinFrameEnded_drainSound (fate : JoinFate) (sound : s.ControlSound) (h : s.DrainSound) :
    (joinFrameEnded fate s).DrainSound := by
  unfold joinFrameEnded
  split
  case h_1 own =>
    have joining : s.control.state = .joining := sound.sentIn own
    refine muteIfDue_drainSound ?_
    unfold joinEnded
    split
    case h_1 presence => exact drainSound_of_state (congrArg Standing.state (standing_enterOnline presence _)) nofun
    case h_2 => exact drainSound_of_state (st := .faultClash) rfl nofun
    all_goals exact drainSound_of_state (st := .joining) joining nofun
  all_goals exact h

theorem leaveFrameEnded_drainSound (fate : LeaveFate) (h : s.DrainSound) : (leaveFrameEnded fate s).DrainSound := by
  unfold leaveFrameEnded
  split
  case h_1 own =>
    refine muteIfDue_drainSound ?_
    unfold leaveEnded
    split
    case h_1 => exact drainSound_of_state (st := .offline) rfl nofun
    all_goals exact h
  all_goals exact h

/-! ### Commands of station control -/

theorem joinCommand_drainSound (h : s.DrainSound) : (joinCommand s).DrainSound := by
  have entered (resumed : Bool) (u : State) : (answer .ok (enterJoining resumed u)).DrainSound :=
    drainSound_of_state (st := .joining) rfl nofun
  unfold joinCommand
  split
  case h_1 =>
    unfold firstJoin
    split
    · exact entered _ _
    · exact h.answer _
  case h_2 => exact entered _ s
  case h_3 => exact entered _ s
  case h_4 => exact entered _ s
  all_goals exact h.answer _

theorem restartCommand_drainSound (h : s.DrainSound) : (restartCommand s).DrainSound := by
  unfold restartCommand
  split
  · exact drainSound_of_state (t := answer .ok (restartTaken s)) (st := .joining) rfl nofun
  · exact h.answer _

/-- DRAIN is taken in ONLINE, where no LEAVE candidate is present. -/
theorem drainCommand_drainSound (law : ControlLaw s) (h : s.DrainSound) : (drainCommand s).DrainSound := by
  unfold drainCommand
  split
  case isFalse => exact h.answer _
  case isTrue online =>
    have absent := (law.noDrain (by rw [online]; nofun)).1
    have withdrawn := (withdrawUnoffered_moves (startDrain s)).same
    have handed := (handSelfReturns_moves (s.work.inbound.filter fun r => r.state == .waiting)
      (returnWaiting (withdrawUnoffered (startDrain s)))).same
    refine State.DrainSound.answer (testDrain_drainSound fun _ present => ?_) _
    exact nomatch absent.symm.trans (withdrawn.leave.symm.trans (handed.leave.symm.trans present))

/-! ### Every command -/

theorem State.DrainSound.fromStation {sender : StationNumber} {f : State → State} (h : s.DrainSound)
    (acts : (f s).DrainSound) : (fromStation sender f s).DrainSound := by
  unfold Machine.fromStation
  split
  · exact acts
  · exact h

theorem State.DrainSound.whenReceiving {f : State → State} (h : s.DrainSound) (acts : (f s).DrainSound) :
    (whenReceiving f s).DrainSound := by
  unfold Machine.whenReceiving
  split
  · exact acts
  · exact h

theorem effect_drainSound (c : Instr) (sound : s.ControlSound) (h : s.DrainSound) : (effect c s).DrainSound := by
  have law := (controlSound_iff.1 sound).1
  cases c with
  | resetAssert => exact h
  | resetRelease straps =>
    obtain ⟨-, -, -, -, -, drain⟩ := release_sound straps s
    exact drain
  | configWrite g f v =>
    change (writeConfig g f v s).DrainSound
    unfold writeConfig
    split
    · exact h.answer _
    · split
      · exact h.answer _
      · split
        · exact h.answer _
        · split <;> exact h
  | configRead g f =>
    change (readConfig g f s).DrainSound
    unfold readConfig
    split <;> exact h
  | join => exact joinCommand_drainSound h
  | drain => exact drainCommand_drainSound law h
  | restart => exact restartCommand_drainSound h
  | submit c l p set a => exact submitCommand_drainSound c l p set a h
  | cancel tag => exact cancelCommand_drainSound tag h
  | query tag =>
    change (queryCommand tag s).DrainSound
    unfold queryCommand
    split <;> exact h
  | take => exact takeCommand_drainSound h
  | finish i o => exact finishCommand_drainSound i o h
  | handBack i => exact handBackCommand_drainSound i h
  | report => exact reportCommand_drainSound h
  | status => exact h
  | mask e v => exact maskCommand_drainSound e v h
  | touch a =>
    change (touchCommand a s).DrainSound
    unfold touchCommand
    split <;> exact h
  | forget =>
    change (forgetCommand s).DrainSound
    unfold forgetCommand
    split <;> exact h
  | roster => exact h
  | unknownCommandByte _ => exact h
  | transactionDiscarded => exact h
  | lineBecomesActive l => exact lineActivated_drainSound l h
  | lineBecomesInactive l =>
    refine h.same (same_lineInactivated l s) fun _ => ?_
    change drainComplete (lineInactivated l s) = drainComplete s
    unfold lineInactivated
    simp only
    split
    · split <;> rfl
    · rfl
  | deadlineTick => exact h.same (same_tick s) fun _ => drainComplete_tick s
  | backoffExpiry tag => exact backoffExpired_drainSound tag h
  | deadlineExpiry tag => exact deadlineExpired_drainSound tag h
  | drainLimitExpiry => exact drainLimitExpired_drainSound law h
  | synchronisationQuiet =>
    change (quietSeen s).DrainSound
    unfold quietSeen
    split <;> exact h
  | unreadableKind _ => exact h.whenReceiving h
  | frameStart => exact frameStart_drainSound h
  | offerValidated o => exact h.fromStation (f := fun s => { s with claim.offerInHand := some (decideOffer o s) }) h
  | claimAsRead bid claimant confirm => exact h.whenReceiving (claimRead_drainSound bid claimant confirm h)
  | noticeReceived n =>
    refine h.fromStation (f := fun s => if n.target = s.control.number then noticeAnswered n s else s) ?_
    split
    · exact noticeAnswered_drainSound n h
    · exact h
  | noticeSenderLearned sender => exact h.fromStation (f := fun s => setAnswer .none (addToRoster sender s)) h
  | joinAnswer sender => exact h.fromStation (f := fun s => setAnswer _ s) h
  | joinReceived sender resumed clash =>
    exact h.fromStation (f := fun s => joinRead sender resumed clash (setAnswer .none s))
      (joinRead_drainSound sender resumed clash (s := setAnswer .none s) h)
  | leaveReceived sender =>
    exact h.fromStation
      (f := fun s => leaveRead sender (setAnswer (if s.control.state.sends then .acknowledge else .none) s))
      (leaveRead_drainSound sender (s := setAnswer _ s) h)
  | offerFrameEnd fate => exact offerFrameEnded_drainSound fate h
  | noticeFrameFate fate => exact noticeFrameEnded_drainSound fate h
  | joinFrameEnd fate => exact joinFrameEnded_drainSound fate sound h
  | leaveFrameEnd fate => exact leaveFrameEnded_drainSound fate h
  | checkFoundBad => exact h.whenReceiving h

/-! ### The empty queue -/

theorem drainComplete_idle (s : State) : drainComplete (idle s) = drainComplete s := by
  unfold idle
  split
  · rfl
  · split
    case h_2 => rfl
    case h_1 e rest _ =>
      cases e with
      | bitPeriod dbd src =>
        change drainComplete (bitPeriod dbd src _) = _
        unfold bitPeriod
        split
        · rfl
        · have bus := elsewhere_busBit dbd { s with inputs := rest }
          unfold drainComplete
          simp only [queueEvents, bus.records, bus.inbound, bus.slots]
      | scsFall =>
        change drainComplete (portFall _) = _
        unfold portFall
        split <;> rfl
      | scsRise =>
        change drainComplete (portRise _) = _
        unfold portRise
        simp only
        split <;> rfl
      | sck sdi =>
        change drainComplete (portClock sdi _) = _
        unfold portClock
        split
        · rfl
        · split
          · rfl
          · simp only
            split
            · rfl
            · split <;> rfl

/-- Settles O60: on an empty queue the collections stay, and each command keeps the law. -/
theorem drainStaysSound : Obligations.DrainStaysSound := by
  intro s t sound step
  obtain ⟨-, -, control, -, -, drain⟩ := sound
  rcases step_cases step with ⟨-, rfl⟩ | ⟨c, rest, -, run⟩
  · exact drain.same (same_idle s) fun _ => drainComplete_idle s
  · rcases exec_cases run with rfl | rfl
    · exact drain
    · exact effect_drainSound c (s := { s with pending := rest }) control drain

end Sys2Proof.Machine
end

section
/-! PROOFS. One command at a time, the part itself: every command answers a next state (R176), what RESET# does (R44), and the commands
of configuration and station control (R47, R48, R61, R179, R180). -/

namespace Sys2Proof.Machine

/-! ### Every command (R176, R178) -/

theorem Change.outside {s t : State} (change : Change s t) : t.outside = s.outside := by
  cases change with
  | ticket step =>
    have only := step.onlyTickets
    unfold State.outside
    rw [only.pending, only.inputs, only.freeDrawn]
  | elsewhere same => exact same.outside
  | empty empty => exact empty.outside
  | claim bid claimant confirm => exact claimRead_outside bid claimant confirm s
  | _ => rfl

theorem effect_outside (c : Instr) (s : State) : (effect c s).outside = s.outside := by
  by_cases release : ∃ straps, c = .resetRelease straps
  · obtain ⟨straps, rfl⟩ := release
    rfl
  · exact (effect_changes (fun straps is => release ⟨straps, is⟩) s).keeps (P := fun t => t.outside = s.outside)
      (fun change same => change.outside.trans same) rfl

/-- Settles O1. -/
theorem stepRunsFrontCommand : Obligations.StepRunsFrontCommand := by
  intro c rest s queue
  unfold step
  rw [queue]

/-- Settles O2: a command is ignored or acts, and none of the changes it is made of is the outside's. -/
theorem everyCommandAnswersNext : Obligations.EveryCommandAnswersNext := by
  intro c s
  obtain ⟨t, run, cases⟩ := exec_next c s
  have same : t.outside = s.outside := by
    rcases cases with rfl | rfl
    · rfl
    · exact effect_outside c s
  simp only [State.outside, Prod.mk.injEq] at same
  exact ⟨t, run, same⟩

/-! ### Reset (R44, R175) -/

/-- Settles O4: in a held station only the two commands of RESET# act. -/
theorem heldStationIgnoresCommands : Obligations.HeldStationIgnoresCommands := by
  intro c s held notAssert notRelease
  refine exec_of_held held ?_
  cases c with
  | resetAssert => exact absurd rfl notAssert
  | resetRelease straps => exact absurd rfl (notRelease straps)
  | _ => rfl

/-- Settles O5. -/
theorem resetAssertHoldsStation : Obligations.ResetAssertHoldsStation := by
  intro s
  exact ⟨hold s, rfl, rfl, rfl, rfl, rfl, rfl, rfl, rfl, rfl, rfl, rfl, rfl, rfl⟩

/-- Settles O6: the vectors of the configuration, the entries and the slots hold one value throughout. -/
theorem resetReleaseGivesResetValues : Obligations.ResetReleaseGivesResetValues := by
  intro straps s
  refine ⟨release straps s, rfl, rfl, rfl, rfl, fun n => ?_, fun l => ?_, rfl, rfl, rfl, rfl, rfl, rfl, rfl, rfl, rfl,
    fun l => ?_, rfl, rfl, rfl, fun i => ?_, rfl, rfl, rfl⟩
  · exact vector_get_replicate 32 n.toFin _
  · exact vector_get_replicate 8 l _
  · exact vector_get_replicate 8 l _
  · exact vector_get_replicate 8 i none

/-! ### Configuration (R180) -/

/-- Settles O9. -/
theorem configReadReturnsItem : Obligations.ConfigReadReturnsItem := by
  intro group field s run
  rw [exec_of_run run]
  refine ⟨fun none => ?_, fun item named => ⟨toBytes 5 (s.control.config.read item).toNat, ?_, rfl, ?_⟩⟩
  · change Host.Outcome.next (readConfig group field s) = _
    unfold readConfig
    rw [none]
  · change Host.Outcome.next (readConfig group field s) = _
    unfold readConfig
    rw [named]
  · exact ofBytes_toBytes_five _ (s.control.config.read item).isLt

/-! ### RESTART (R61) -/

theorem restartCommand_stopped {s : State} (stopped : s.control.state.started = false) :
    restartCommand s = answer .state s := by
  unfold restartCommand
  rw [stopped]
  rfl

theorem restartCommand_started {s : State} (started : s.control.state.started = true) :
    restartCommand s = answer .ok (restartTaken s) := by
  unfold restartCommand
  rw [if_pos started]

/-- Settles O12. -/
theorem restartByState : Obligations.RestartByState := by
  intro s run
  refine ⟨fun stopped => ?_, fun configured numbered => ?_⟩
  · rw [exec_of_run run]
    exact congrArg _ (restartCommand_stopped (not_started_iff.2 stopped))
  · have started := started_iff.2 ⟨configured, numbered⟩
    refine ⟨answer .ok (restartTaken s), ?_, rfl, rfl, rfl, rfl, fun l => ?_, rfl, rfl, rfl, fun i => ?_, rfl, rfl, ?_⟩
    · rw [exec_of_run run]
      exact congrArg _ (restartCommand_started started)
    · exact vector_get_ofFn _ l
    · exact vector_get_replicate 8 i none
    · unfold drive
      rw [show (answer .ok (restartTaken s)).receiving = false from rfl]
      simp

end Sys2Proof.Machine
end

section
/-! PROOFS. CONFIG_WRITE and JOIN: identifiers and items (R195), what writing an item leaves in it and in the others (R46, R179), and
JOIN by the station state (R47, R48). -/

namespace Sys2Proof.Machine

/-! ### Identifiers (R195) -/

theorem numByte_toNat {n : Nat} (small : n < 256) : (numByte n).toNat = n := by
  unfold numByte
  rw [BitVec.toNat_ofNat]
  exact Nat.mod_eq_of_lt small

theorem numByte_of_toNat (b : Byte) : numByte b.toNat = b := by
  unfold numByte
  rw [BitVec.ofNat_toNat, BitVec.setWidth_eq]

theorem classField_code (f : ClassField) : classField f.code = some f := by cases f <;> rfl

theorem sourceField_code (f : SourceField) : sourceField f.code = some f := by cases f <;> rfl

theorem stationField_code (f : StationField) : stationField f.code = some f := by cases f <;> rfl

theorem code_of_classField {n : Nat} {f : ClassField} (h : classField n = some f) : f.code = n := by
  unfold classField at h
  split at h <;> cases h <;> rfl

theorem code_of_sourceField {n : Nat} {f : SourceField} (h : sourceField n = some f) : f.code = n := by
  unfold sourceField at h
  split at h <;> cases h <;> rfl

theorem code_of_stationField {n : Nat} {f : StationField} (h : stationField n = some f) : f.code = n := by
  unfold stationField at h
  split at h <;> cases h <;> rfl

theorem fieldByte_of_code {n : Nat} {field : Byte} (h : n = field.toNat) : numByte n = field := by
  rw [h, numByte_of_toNat]

/-- Every item is found by its identifier. -/
theorem configItem_identifier (item : ConfigItem) : configItem item.identifier.1 item.identifier.2 = some item := by
  cases item with
  | cls n f =>
    have group : (numByte n.toNat).toNat = n.toNat := numByte_toNat (by have := n.isLt; omega)
    have field : (numByte f.code).toNat = f.code := numByte_toNat (by cases f <;> decide)
    simp only [ConfigItem.identifier, configItem, group, field, classField_code, n.isLt, if_pos, Option.map_some,
      BitVec.ofNat_toNat, BitVec.setWidth_eq]
  | source n f =>
    have below := n.isLt
    have group : (numByte (32 + n.val)).toNat = 32 + n.val := numByte_toNat (by omega)
    have field : (numByte f.code).toNat = f.code := numByte_toNat (by cases f <;> decide)
    have line : Fin.ofNat 8 (32 + n.val - 32) = n := by
      rw [Nat.add_sub_cancel_left]
      exact Fin.ofNat_val_eq_self n
    rw [ConfigItem.identifier, configItem, group, field, if_neg (by omega), if_pos (by omega), sourceField_code, line]
    rfl
  | station f =>
    have field : (numByte f.code).toNat = f.code := numByte_toNat (by cases f <;> decide)
    change (stationField (numByte f.code).toNat).map ConfigItem.station = _
    rw [field, stationField_code]
    rfl

theorem identifier_of_configItem {group field : Byte} {item : ConfigItem} (h : configItem group field = some item) :
    item.identifier = (group, field) := by
  unfold configItem at h
  split at h
  case isTrue low =>
    obtain ⟨f, named, rfl⟩ := Option.map_eq_some_iff.1 h
    refine Prod.ext ?_ (fieldByte_of_code (code_of_classField named))
    change numByte (BitVec.ofNat 5 group.toNat).toNat = group
    rw [BitVec.toNat_ofNat, Nat.mod_eq_of_lt low, numByte_of_toNat]
  case isFalse notClass =>
    split at h
    case isTrue middle =>
      obtain ⟨f, named, rfl⟩ := Option.map_eq_some_iff.1 h
      refine Prod.ext ?_ (fieldByte_of_code (code_of_sourceField named))
      change numByte (32 + (group.toNat - 32) % 8) = group
      rw [Nat.mod_eq_of_lt (by omega), Nat.add_sub_cancel' (by omega), numByte_of_toNat]
    case isFalse =>
      split at h
      case isTrue last =>
        obtain ⟨f, named, rfl⟩ := Option.map_eq_some_iff.1 h
        exact Prod.ext (BitVec.eq_of_toNat_eq last.symm) (fieldByte_of_code (code_of_stationField named))
      case isFalse => cases h

/-! ### The value fields (R195) -/

section
variable {v : BitVec 40}

theorem numberIn_inside {low high : Nat} (h : low ≤ v.toNat ∧ v.toNat ≤ high) : numberIn low high v = some v.toNat := if_pos h

theorem numberIn_outside {low high : Nat} (h : ¬ (low ≤ v.toNat ∧ v.toNat ≤ high)) : numberIn low high v = none := if_neg h

theorem ofNat_value (v : BitVec 40) : BitVec.ofNat 40 v.toNat = v := by rw [BitVec.ofNat_toNat, BitVec.setWidth_eq]

/-- A flag, and every item whose two values stand for 0 and 1. -/
theorem flagValue_of_le_one (h : v.toNat ≤ 1) : flagValue (v.toNat == 1) = v := by
  apply BitVec.eq_of_toNat_eq
  unfold flagValue
  split
  case isTrue one => exact (eq_of_beq one).symm
  case isFalse other =>
    have : v.toNat ≠ 1 := by simpa using other
    change 0 = v.toNat
    omega

theorem setValue_back (h : v.toNat ≤ 32767) : BitVec.ofNat 40 (BitVec.ofNat 15 v.toNat).toNat = v := by
  rw [BitVec.toNat_ofNat, Nat.mod_eq_of_lt (by omega), ofNat_value]

theorem flagOf_inside (h : 0 ≤ v.toNat ∧ v.toNat ≤ 1) : flagOf v = some (v.toNat == 1) :=
  congrArg (Option.map (· == 1)) (numberIn_inside h)

theorem flagOf_outside (h : ¬ (0 ≤ v.toNat ∧ v.toNat ≤ 1)) : flagOf v = none :=
  Option.map_eq_none_iff.2 (numberIn_outside h)

/-- What a write of one field must give: the value read back, the other fields as they were. -/
def WritesBack {E F : Type} (read : E → F → BitVec 40) (e : E) (f : F) (back : BitVec 40) (written : Option E) : Prop :=
  ∃ e', written = some e' ∧ read e' f = back ∧ ∀ g, g ≠ f → read e' g = read e g

theorem WritesBack.of_value {E F A : Type} {read : E → F → BitVec 40} {e : E} {f : F} {back : BitVec 40} {value : Option A} {a : A}
    {put : A → E} (inside : value = some a) (own : read (put a) f = back) (others : ∀ g, g ≠ f → read (put a) g = read e g) :
    WritesBack read e f back (value.map put) := ⟨put a, by rw [inside]; rfl, own, others⟩

theorem ClassEntry.write_inside (e : ClassEntry) (n : TicketClass) (f : ClassField) (h : (ConfigItem.cls n f).inRange v) :
    WritesBack ClassEntry.read e f v (e.write f v) := by
  cases f with
  | accept | affinityUse | report =>
    refine .of_value (flagOf_inside h) (flagValue_of_le_one h.2) fun g other => ?_
    cases g <;> first | rfl | exact absurd rfl other
  | deadline | retry | attemptLimit | reofferLimit =>
    refine .of_value (numberIn_inside h) (ofNat_value v) fun g other => ?_
    cases g <;> first | rfl | exact absurd rfl other

theorem ClassEntry.write_outside (e : ClassEntry) (n : TicketClass) (f : ClassField) (h : ¬ (ConfigItem.cls n f).inRange v) :
    e.write f v = none := by
  cases f with
  | accept | affinityUse | report => exact Option.map_eq_none_iff.2 (flagOf_outside h)
  | deadline | retry | attemptLimit | reofferLimit => exact Option.map_eq_none_iff.2 (numberIn_outside h)

/-- A data address reads back, or 0 where it was written absent. -/
theorem addrValue_inside (h : v.toNat ≤ 8589934591) (e : SourceConfig) : ∃ a, addrValueOf v = some a ∧
    SourceConfig.read { e with addr := a } .addr = if v.toNat < 4294967296 then 0 else v := by
  unfold addrValueOf
  by_cases absent : v.toNat < 4294967296
  · have zero : v.toNat / 2 ^ 32 = 0 := Nat.div_eq_of_lt absent
    rw [zero]
    exact ⟨none, rfl, (if_pos absent).symm⟩
  · have one : v.toNat / 2 ^ 32 = 1 := by omega
    rw [one]
    refine ⟨_, rfl, ?_⟩
    rw [if_neg absent]
    change BitVec.ofNat 40 (2 ^ 32 + (BitVec.ofNat 32 v.toNat).toNat) = v
    rw [BitVec.toNat_ofNat, show 2 ^ 32 + v.toNat % 2 ^ 32 = v.toNat by omega, ofNat_value]

theorem addrValue_outside (h : ¬ v.toNat ≤ 8589934591) : addrValueOf v = none := by
  unfold addrValueOf
  split
  · omega
  · omega
  · rfl

theorem trigger_back {n : Nat} (h : n ≤ 1) : ((if n = 0 then Trigger.edge else .level) == .level) = (n == 1) := by
  interval_cases n <;> rfl

theorem polarity_back {n : Nat} (h : n ≤ 1) : ((if n = 0 then Polarity.high else .low) == .low) = (n == 1) := by
  interval_cases n <;> rfl

theorem SourceConfig.write_inside (e : SourceConfig) (l : Line) (f : SourceField) (h : (ConfigItem.source l f).inRange v) :
    WritesBack SourceConfig.read e f ((ConfigItem.source l f).readsBack v) (e.write f v) := by
  cases f with
  | startMasked =>
    refine .of_value (flagOf_inside h) (flagValue_of_le_one h.2) fun g other => ?_
    cases g <;> first | rfl | exact absurd rfl other
  | trigger =>
    refine .of_value (congrArg (Option.map _) (numberIn_inside h)) ?_ fun g other => ?_
    · exact (congrArg flagValue (trigger_back h.2)).trans (flagValue_of_le_one h.2)
    · cases g <;> first | rfl | exact absurd rfl other
  | polarity =>
    refine .of_value (congrArg (Option.map _) (numberIn_inside h)) ?_ fun g other => ?_
    · exact (congrArg flagValue (polarity_back h.2)).trans (flagValue_of_le_one h.2)
    · cases g <;> first | rfl | exact absurd rfl other
  | cls | level =>
    refine .of_value (numberIn_inside h) (ofNat_value v) fun g other => ?_
    cases g <;> first | rfl | exact absurd rfl other
  | dest =>
    refine .of_value (congrArg (Option.map _) (numberIn_inside h)) (setValue_back h.2) fun g other => ?_
    cases g <;> first | rfl | exact absurd rfl other
  | addr =>
    obtain ⟨a, read, back⟩ := addrValue_inside h.2 e
    refine .of_value read back fun g other => ?_
    cases g <;> first | rfl | exact absurd rfl other

theorem SourceConfig.write_outside (e : SourceConfig) (l : Line) (f : SourceField)
    (h : ¬ (ConfigItem.source l f).inRange v) : e.write f v = none := by
  cases f with
  | startMasked => exact Option.map_eq_none_iff.2 (flagOf_outside h)
  | trigger | polarity | dest => exact Option.map_eq_none_iff.2 (Option.map_eq_none_iff.2 (numberIn_outside h))
  | cls | level => exact Option.map_eq_none_iff.2 (numberIn_outside h)
  | addr => exact Option.map_eq_none_iff.2 (addrValue_outside fun inside => h ⟨Nat.zero_le _, inside⟩)

theorem StationItems.write_inside (e : StationItems) (f : StationField) (h : (ConfigItem.station f).inRange v) :
    WritesBack StationItems.read e f v (e.write f v) := by
  cases f with
  | enableInbound | enableReport | enableStateChange =>
    refine .of_value (flagOf_inside h) (flagValue_of_le_one h.2) fun g other => ?_
    cases g <;> first | rfl | exact absurd rfl other
  | tickFactor | blockExponent | affinityWeight | drainLimit | attentionThreshold =>
    refine .of_value (numberIn_inside h) (ofNat_value v) fun g other => ?_
    cases g <;> first | rfl | exact absurd rfl other

theorem StationItems.write_outside (e : StationItems) (f : StationField) (h : ¬ (ConfigItem.station f).inRange v) :
    e.write f v = none := by
  cases f with
  | enableInbound | enableReport | enableStateChange => exact Option.map_eq_none_iff.2 (flagOf_outside h)
  | tickFactor | blockExponent | affinityWeight | drainLimit | attentionThreshold =>
    exact Option.map_eq_none_iff.2 (numberIn_outside h)

/-! ### The record (R46, R179) -/

theorem Configuration.write_outside (c : Configuration) (item : ConfigItem) (h : ¬ item.inRange v) : c.write item v = none := by
  cases item with
  | cls n f => rw [write, ClassEntry.write_outside _ n f h]; rfl
  | source l f => rw [write, SourceConfig.write_outside _ l f h]; rfl
  | station f => rw [write, StationItems.write_outside _ f h]; rfl

theorem Configuration.write_inside (c : Configuration) (item : ConfigItem) (h : item.inRange v) :
    WritesBack Configuration.read c item (item.readsBack v) (c.write item v) := by
  cases item with
  | cls n f =>
    obtain ⟨e, written, back, others⟩ := ClassEntry.write_inside (c.classEntry n) n f h
    have own : Configuration.classEntry { c with classes := c.classes.set n.toFin e } n = e := by
      unfold Configuration.classEntry
      rw [vector_get_set, if_pos rfl]
    refine ⟨{ c with classes := c.classes.set n.toFin e }, by rw [write, written]; rfl, ?_, fun other apart => ?_⟩
    · exact (congrArg (fun e => ClassEntry.read e f) own).trans back
    · cases other with
      | cls m g =>
        by_cases same : m = n
        · subst same
          exact (congrArg (fun e => ClassEntry.read e g) own).trans (others g fun is => apart (by rw [is]))
        · have entry : Configuration.classEntry { c with classes := c.classes.set n.toFin e } m = c.classEntry m := by
            unfold Configuration.classEntry
            rw [vector_get_set, if_neg fun is => same (BitVec.toFin_inj.1 is.symm)]
          exact congrArg (fun e => ClassEntry.read e g) entry
      | source | station => rfl
  | source l f =>
    obtain ⟨e, written, back, others⟩ := SourceConfig.write_inside (c.sourceConfig l) l f h
    have own : Configuration.sourceConfig { c with sources := c.sources.set l e } l = e := by
      unfold Configuration.sourceConfig
      rw [vector_get_set, if_pos rfl]
    refine ⟨{ c with sources := c.sources.set l e }, by rw [write, written]; rfl, ?_, fun other apart => ?_⟩
    · exact (congrArg (fun e => SourceConfig.read e f) own).trans back
    · cases other with
      | source m g =>
        by_cases same : m = l
        · subst same
          exact (congrArg (fun e => SourceConfig.read e g) own).trans (others g fun is => apart (by rw [is]))
        · have entry : Configuration.sourceConfig { c with sources := c.sources.set l e } m = c.sourceConfig m := by
            unfold Configuration.sourceConfig
            rw [vector_get_set, if_neg fun is => same is.symm]
          exact congrArg (fun e => SourceConfig.read e g) entry
      | cls | station => rfl
  | station f =>
    obtain ⟨e, written, back, others⟩ := StationItems.write_inside c.station f h
    refine ⟨{ c with station := e }, by rw [write, written]; rfl, back, fun other apart => ?_⟩
    cases other with
    | station g => exact others g fun is => apart (by rw [is])
    | cls | source => rfl

end

/-! ### The checks of CONFIG_WRITE (R179) -/

/-- Settles O8: the checks in their order; then the write of one item in the record. -/
theorem configWriteChecksAndWrites : Obligations.ConfigWriteChecksAndWrites := by
  refine ⟨fun group field item => ⟨identifier_of_configItem, fun is => ?_⟩, fun group field v s run => ?_⟩
  · have found := configItem_identifier item
    rwa [is] at found
  · rw [exec_of_run run]
    change (_ → Host.Outcome.next (writeConfig group field v s) = _) ∧ (_ → _ → Host.Outcome.next (writeConfig group field v s) = _) ∧
      (_ → _ → _ → Host.Outcome.next (writeConfig group field v s) = _) ∧
      (∀ item, _ → _ → _ → _ → Host.Outcome.next (writeConfig group field v s) = _) ∧
      ∀ item, _ → _ → _ → _ → ∃ c : Configuration, Host.Outcome.next (writeConfig group field v s) = _ ∧ _ ∧ _
    unfold writeConfig
    refine ⟨fun fault => ?_, fun noFault locked => ?_, fun noFault unlocked none => ?_,
      fun item noFault unlocked named outside => ?_, fun item noFault unlocked named inside => ?_⟩
    · rw [if_pos fault]
    · rw [if_neg noFault, if_pos locked]
    · rw [if_neg noFault, unlocked, none]
      rfl
    · rw [if_neg noFault, unlocked, named]
      simp only [Configuration.write_outside _ item outside]
      rfl
    · obtain ⟨c, written, back, others⟩ := Configuration.write_inside s.control.config item inside
      refine ⟨c, ?_, back, others⟩
      rw [if_neg noFault, unlocked, named]
      simp only [written]
      rfl

/-! ### JOIN (R47, R48) -/

theorem Configuration.valid_iff {c : Configuration} : c.valid = true ↔ c.InRanges := by
  have classes : c.classes.toList.all ClassEntry.valid = true ↔ ∀ n : TicketClass, (c.classEntry n).valid = true := by
    rw [List.all_eq_true]
    constructor
    · exact fun all n => all _ (vector_mem_toList.2 ⟨n.toFin, rfl⟩)
    · intro all e mem
      obtain ⟨i, rfl⟩ := vector_mem_toList.1 mem
      exact all (BitVec.ofFin i)
  have sources : c.sources.toList.all SourceConfig.valid = true ↔ ∀ l : Line, (c.sourceConfig l).valid = true := by
    rw [List.all_eq_true]
    constructor
    · exact fun all l => all _ (vector_mem_toList.2 ⟨l, rfl⟩)
    · intro all e mem
      obtain ⟨i, rfl⟩ := vector_mem_toList.1 mem
      exact all i
  unfold Configuration.valid
  rw [Bool.and_eq_true, Bool.and_eq_true, classes, sources, and_assoc]
  simp only [ClassEntry.valid, SourceConfig.valid, StationItems.valid, decide_eq_true_eq, Configuration.InRanges]

theorem joinCommand_refused {s : State} (state : s.control.state = .faultNumber ∨ s.control.state = .joining ∨
    s.control.state = .online ∨ s.control.state = .draining) : joinCommand s = answer .state s := by
  unfold joinCommand
  rcases state with state | state | state | state <;> rw [state]

theorem joinCommand_unconfigured {s : State} (state : s.control.state = .unconfigured) : joinCommand s = firstJoin s := by
  unfold joinCommand
  rw [state]

theorem joinCommand_again {s : State} (state : s.control.state = .offline ∨ s.control.state = .faultClash) :
    joinCommand s = answer .ok (enterJoining false s) := by
  unfold joinCommand
  rcases state with state | state <;> rw [state]

theorem joinCommand_muted {s : State} (state : s.control.state = .muted) :
    joinCommand s = answer .ok (enterJoining s.control.mutedResumed s) := by
  unfold joinCommand
  rw [state]

/-- Settles O10. -/
theorem joinByState : Obligations.JoinByState := by
  intro s run
  rw [exec_of_run run]
  refine ⟨fun state => congrArg _ (joinCommand_refused state), fun state invalid => ?_, fun state valid => ?_,
    fun state => congrArg _ (joinCommand_again state), fun state => congrArg _ (joinCommand_muted state)⟩
  · refine congrArg _ ((joinCommand_unconfigured state).trans ?_)
    unfold firstJoin
    rw [if_neg fun valid => invalid (Configuration.valid_iff.1 valid)]
  · refine ⟨answer .ok (enterJoining false (applyStartMasked { s with control.locked := true })), ?_, rfl, fun l => ?_, rfl⟩
    · refine congrArg _ ((joinCommand_unconfigured state).trans ?_)
      unfold firstJoin
      rw [if_pos (Configuration.valid_iff.2 valid)]
    · exact entryAt_applyStartMasked { s with control.locked := true } l

end Sys2Proof.Machine
end

section
/-! PROOFS. TAKE, FINISH, HAND_BACK and REPORT (R145 to R149, R166 to R168): the checks in their order, the move of a copy, and the
report removed with the item placed after it. -/

namespace Sys2Proof.Machine

/-! ### First and least -/

theorem find?_finRange {n : Nat} {p : Fin n → Bool} {i : Fin n} (holds : p i = true) (first : ∀ j, j < i → p j = false) :
    (List.finRange n).find? p = some i := by
  refine List.find?_eq_some_iff_getElem.2 ⟨holds, i.val, by simp, by simp, fun j below => ?_⟩
  rw [List.getElem_finRange, Bool.not_eq_true']
  exact first _ below

theorem leastBy_eq_some {α : Type} {key : α → Nat} {l : List α} {a : α} (mem : a ∈ l) (least : ∀ b ∈ l, b ≠ a → key a < key b) :
    leastBy key l = some a := by
  induction l with
  | nil => cases mem
  | cons b l ih =>
    unfold leastBy
    by_cases inTail : a ∈ l
    · rw [ih inTail fun c held other => least c (List.mem_cons_of_mem _ held) other]
      by_cases same : b = a
      · subst same
        simp
      · exact if_pos (least b List.mem_cons_self same)
    · obtain rfl : a = b := (List.mem_cons.1 mem).resolve_right inTail
      split
      case h_1 c found =>
        have held := mem_of_leastBy found
        have after := least c (List.mem_cons_of_mem _ held) fun same => inTail (same ▸ held)
        exact if_neg (Nat.lt_asymm after)
      case h_2 => rfl

/-! ### FINISH and HAND_BACK (R148, R149) -/

section
variable {s : State} {i : Fin 8}

theorem slotOf_eq {slot : Byte} (same : slot.toNat = i.val) : slotOf slot = some i := by
  unfold slotOf
  rw [dif_pos (by omega)]
  exact congrArg some (Fin.ext same)

theorem slotOf_none {slot : Byte} (large : 7 < slot.toNat) : slotOf slot = none := by
  unfold slotOf
  exact dif_neg (by omega)

/-- The slot with its entry NOTIFYING, and the next notice age (R148). -/
def noticeMade (i : Fin 8) (e : ServiceEntry) (kind : NoticeKind) (s : State) : State :=
  setSlot i (some { e with state := .notifying kind s.work.noticeCounter 0 none })
    { s with work.noticeCounter := s.work.noticeCounter + 1 }

theorem noticeMade_slot (i : Fin 8) (e : ServiceEntry) (kind : NoticeKind) (s : State) :
    (noticeMade i e kind s).work.slots.get i = some { e with state := .notifying kind s.work.noticeCounter 0 none } :=
  (vector_get_set s.work.slots i i _).trans (if_pos rfl)

/-- A notice to another station is not handed to the own offer unit. -/
theorem handIfSelf_other {e : ServiceEntry} (held : s.work.slots.get i = some e) (other : e.originator ≠ s.control.number) :
    handIfSelf (.slot i) s = s := by
  unfold handIfSelf
  split
  case h_2 => rfl
  case h_1 n found =>
    have mem := List.mem_of_find?_eq_some found
    have ref : n.ref = .slot i := by simpa using List.find?_some found
    obtain ⟨e', held', notice⟩ := mem_heldNotices_slot mem ref
    cases held.symm.trans held'
    have originator : n.originator = e.originator := by
      unfold slotNotice at notice
      split at notice <;> cases notice
      rfl
    refine if_neg fun self => ?_
    simp only [isSelfNotice, originator, Bool.and_eq_true, beq_iff_eq] at self
    exact other self.1

theorem makeNotice_quiet {e : ServiceEntry} (kind : NoticeKind)
    (quiet : e.originator ≠ s.control.number ∨ s.control.state = .joining ∨ s.control.state = .muted) :
    makeNotice i e kind s = noticeMade i e kind s := by
  unfold makeNotice
  rw [← noticeMade]
  simp only
  split
  case isFalse => rfl
  case isTrue answers =>
    have other : e.originator ≠ s.control.number := by
      rcases quiet with other | state | state
      · exact other
      · rw [state] at answers; cases answers
      · rw [state] at answers; cases answers
    exact handIfSelf_other (noticeMade_slot i e kind s) other

/-- With a copy held the drain is not complete, and the test finds nothing to do. -/
theorem testDrain_held {e : ServiceEntry} (held : s.work.slots.get i = some e) : testDrain s = s := by
  unfold testDrain
  refine if_neg fun ⟨_, _, complete⟩ => ?_
  exact nomatch held.symm.trans ((drainComplete_iff.1 complete).2.1 i)

theorem disposeSlot_empty (kind : NoticeKind) (empty : s.work.slots.get i = none) : disposeSlot i kind s = answer .unknown s := by
  unfold disposeSlot
  rw [empty]

theorem disposeSlot_notifying (kind : NoticeKind) {e : ServiceEntry} (held : s.work.slots.get i = some e)
    (state : e.state ≠ .taken) : disposeSlot i kind s = answer .state s := by
  unfold disposeSlot
  rw [held]
  simp only
  split
  case h_1 taken => exact absurd taken state
  case h_2 => rfl

theorem disposeSlot_taken (kind : NoticeKind) {e : ServiceEntry} (held : s.work.slots.get i = some e) (state : e.state = .taken)
    (quiet : e.originator ≠ s.control.number ∨ s.control.state = .joining ∨ s.control.state = .muted) :
    disposeSlot i kind s = answer .ok (noticeMade i e kind s) := by
  unfold disposeSlot
  rw [held]
  simp only [state]
  rw [makeNotice_quiet kind quiet, testDrain_held (noticeMade_slot i e kind s)]

theorem finishCommand_stopped {slot outcome : Byte} (stopped : s.control.state.receives = false) :
    finishCommand slot outcome s = answer .state s := by
  unfold finishCommand
  rw [stopped]
  rfl

theorem finishCommand_outside {slot outcome : Byte} (receives : s.control.state.receives = true)
    (outside : 7 < slot.toNat ∨ 3 < outcome.toNat) : finishCommand slot outcome s = answer .param s := by
  unfold finishCommand
  rw [receives]
  simp only [Bool.not_true, Bool.false_eq_true, if_false]
  split
  · rfl
  · rename_i found
    refine if_pos (outside.resolve_left fun large => ?_)
    rw [slotOf_none large] at found
    cases found

theorem finishCommand_dispose {slot outcome : Byte} (receives : s.control.state.receives = true) (same : slot.toNat = i.val)
    (code : outcome.toNat ≤ 3) : finishCommand slot outcome s = disposeSlot i (.done (BitVec.ofNat 2 outcome.toNat)) s := by
  unfold finishCommand
  rw [receives, slotOf_eq same]
  simp only [Bool.not_true, Bool.false_eq_true, if_false]
  rw [if_neg (by omega), BitVec.ofNat_toNat]

theorem handBackCommand_stopped {slot : Byte} (stopped : s.control.state.receives = false) :
    handBackCommand slot s = answer .state s := by
  unfold handBackCommand
  rw [stopped]
  rfl

theorem handBackCommand_outside {slot : Byte} (receives : s.control.state.receives = true) (large : 7 < slot.toNat) :
    handBackCommand slot s = answer .param s := by
  unfold handBackCommand
  rw [receives, slotOf_none large]
  rfl

theorem handBackCommand_dispose {slot : Byte} (receives : s.control.state.receives = true) (same : slot.toNat = i.val) :
    handBackCommand slot s = disposeSlot i .ret s := by
  unfold handBackCommand
  rw [receives, slotOf_eq same]
  rfl

end

/-- Settles O17. -/
theorem finishByEntryState : Obligations.FinishByEntryState := by
  intro slot outcome s run
  rw [exec_of_run run]
  refine ⟨fun stopped => congrArg _ (finishCommand_stopped stopped),
    fun receives outside => congrArg _ (finishCommand_outside receives outside), fun i receives same code => ?_⟩
  have dispose := finishCommand_dispose receives same code
  exact ⟨fun empty => congrArg _ (dispose.trans (disposeSlot_empty _ empty)),
    fun e held state => congrArg _ (dispose.trans (disposeSlot_notifying _ held state)),
    fun e held state quiet => congrArg _ (dispose.trans (disposeSlot_taken _ held state quiet))⟩

/-- Settles O18. -/
theorem handBackByEntryState : Obligations.HandBackByEntryState := by
  intro slot s run
  rw [exec_of_run run]
  refine ⟨fun stopped => congrArg _ (handBackCommand_stopped stopped),
    fun receives large => congrArg _ (handBackCommand_outside receives large), fun i receives same => ?_⟩
  have dispose := handBackCommand_dispose receives same
  exact ⟨fun empty => congrArg _ (dispose.trans (disposeSlot_empty _ empty)),
    fun e held state => congrArg _ (dispose.trans (disposeSlot_notifying _ held state)),
    fun e held state quiet => congrArg _ (dispose.trans (disposeSlot_taken _ held state quiet))⟩

/-! ### TAKE (R145, R146) -/

section
variable {s : State}

theorem takeCommand_stopped (stopped : s.control.state.receives = false) : takeCommand s = answer .state s := by
  unfold takeCommand
  rw [stopped]
  rfl

theorem takeCommand_full (receives : s.control.state.receives = true) (full : ∀ i, s.work.slots.get i ≠ none) :
    takeCommand s = answer .full s := by
  have none : lowestEmptySlot s = none := by
    unfold lowestEmptySlot
    exact List.find?_eq_none.2 fun i _ empty => full i (by simpa using empty)
  unfold takeCommand
  rw [receives, none]
  rfl

theorem takeCommand_empty (receives : s.control.state.receives = true) (room : ∃ i, s.work.slots.get i = none)
    (none : ∀ r ∈ s.work.inbound, r.state ≠ .waiting) : takeCommand s = answer .empty s := by
  have found : (lowestEmptySlot s).isSome = true := by
    obtain ⟨i, empty⟩ := room
    exact List.find?_isSome.2 ⟨i, List.mem_finRange i, by rw [empty]; rfl⟩
  obtain ⟨i, lowest⟩ := Option.isSome_iff_exists.1 found
  have first : firstWaiting s = Option.none := List.find?_eq_none.2 fun r mem waiting => none r mem (by simpa using waiting)
  unfold takeCommand
  rw [receives, lowest, first]
  rfl

theorem takeCommand_moves {i : Fin 8} {r : InRecord} (receives : s.control.state.receives = true)
    (lowest : lowestEmptySlot s = some i) (first : firstWaiting s = some r) :
    takeCommand s = respond .ok (takeBytes i r) (takeRecord i r s) := by
  unfold takeCommand
  rw [receives, lowest, first]
  rfl

theorem useAddress_eq (addr : Option Address) (s : State) : useAddress addr s = { s with
    claim.affinity := match addr with
      | some a => useBlock (a.toNat / 2 ^ s.control.config.station.blockExponent) s.claim.affinity
      | none => s.claim.affinity } := by
  cases addr <;> rfl

end

/-- Settles O16: no other copy of the record's ticket is held, so the queue loses that record alone. -/
theorem takeMovesFirstWaiting : Obligations.TakeMovesFirstWaiting := by
  intro s run
  rw [exec_of_run run]
  refine ⟨fun stopped => congrArg _ (takeCommand_stopped stopped), fun receives full => congrArg _ (takeCommand_full receives full),
    fun receives room none => congrArg _ (takeCommand_empty receives room none),
    fun i before r after receives free lower queue skipped waiting sound => ?_⟩
  have lowest : lowestEmptySlot s = some i :=
    find?_finRange (by rw [free]; rfl) fun j below =>
      Option.isNone_eq_false_iff.2 (Option.isSome_iff_ne_none.2 (lower j below))
  have first : firstWaiting s = some r := by
    unfold firstWaiting
    rw [queue, List.find?_append, List.find?_eq_none.2 fun x mem is => skipped x mem (by simpa using is)]
    simp [waiting]
  obtain ⟨-, -, -, -, nodup, -⟩ := sound
  have left := filter_not_isCopy (queue ▸ copies_inbound_nodup nodup) rfl rfl
  refine congrArg _ ((takeCommand_moves receives lowest first).trans ?_)
  unfold takeRecord
  rw [useAddress_eq, freeCopy_inbound, queue, left]
  rfl

/-! ### REPORT (R166 to R168) -/

section
variable {s : State}

theorem Report.bytes_eq (r : Report) : r.bytes =
    [match r.kind with
      | .completed => 0
      | .refused => 1
      | .lapsed => 2
      | .cancelled => 3
      | .noPeer => 4
      | .withdrawn => 5
      | .stale => 6
      | .undelivered => 7,
     r.tag, BitVec.ofNat 8 r.cls.toNat,
     match r.source with
      | some (.line l) => BitVec.ofNat 8 l.val
      | some .soft => 8
      | none => 255,
     BitVec.ofNat 8 r.generation.toNat,
     match r.peer with
      | some p => BitVec.ofNat 8 p.toNat
      | none => 255,
     match r.outcome with
      | some c => BitVec.ofNat 8 c.toNat
      | none => 255,
     match r.attempts with
      | some n => BitVec.ofNat 8 n
      | none => 255] := by
  obtain ⟨kind, tag, cls, source, generation, peer, outcome, attempts⟩ := r
  have code : kind.code = match kind with
      | .completed => 0
      | .refused => 1
      | .lapsed => 2
      | .cancelled => 3
      | .noPeer => 4
      | .withdrawn => 5
      | .stale => 6
      | .undelivered => 7 := by cases kind <;> rfl
  have origin : orAbsent (source.map Source.code) = match source with
      | some (.line l) => BitVec.ofNat 8 l.val
      | some .soft => 8
      | none => 255 := by
    rcases source with _ | (l | _) <;> rfl
  unfold Report.bytes
  rw [code, origin]
  cases peer <;> cases outcome <;> cases attempts <;> rfl

theorem reportCommand_empty (empty : s.reports.queue = []) : reportCommand s = answer .empty s := by
  unfold reportCommand
  rw [empty]

theorem reportCommand_oldest {r : Report} {rest : List Report} (queue : s.reports.queue = r :: rest) :
    reportCommand s = respond .ok r.bytes (testDrain (placeWaiting { s with reports.queue := rest })) := by
  unfold reportCommand
  rw [queue]

theorem placeWaiting_none (none : waitingItems s = []) : placeWaiting s = s := by
  unfold placeWaiting
  rw [none]
  split <;> rfl

theorem placeWaiting_least {n : Nat} {item : WaitingItem} (room : s.reports.queue.length < 16) (mem : (n, item) ∈ waitingItems s)
    (least : ∀ m other, (m, other) ∈ waitingItems s → (m, other) ≠ (n, item) → n < m) : placeWaiting s = placeItem item s := by
  have found : leastBy (·.1) (waitingItems s) = some (n, item) :=
    leastBy_eq_some mem fun ⟨m, other⟩ held apart => least m other held apart
  unfold placeWaiting
  rw [if_pos (reportRoom_iff.2 room), found]

/-- In a station that keeps R56 the test has been made. -/
theorem testDrain_sound (h : s.DrainSound) : testDrain s = s := by
  unfold testDrain
  refine if_neg fun ⟨draining, absent, complete⟩ => ?_
  rw [(h draining).2 complete] at absent
  cases absent

/-- The test decides from the collections it leaves as they are. -/
theorem testDrain_tested {t : State} (control : t.control = s.control) : (testDrain t).control = drainTested s (testDrain t) := by
  rw [testDrain_control]
  unfold drainTested
  rw [control, drainComplete_testDrain]

theorem testDrain_beside (s : State) : (testDrain s).bus = s.bus ∧ (testDrain s).claim = s.claim ∧
    (testDrain s).work = s.work ∧ (testDrain s).offer = s.offer ∧ (testDrain s).reports = s.reports ∧
      (testDrain s).sources = s.sources ∧ (testDrain s).port = s.port := by
  rw [testDrain_eq]
  exact ⟨rfl, rfl, rfl, rfl, rfl, rfl, rfl⟩

/-- A record that has waited for report room leaves the list with its report placed (R167). -/
theorem placeItem_record (x : OutRecord) (res : Resolution) (s : State) :
    OnlyTickets s (placeItem (.record x res) s) ∧
      s.reports.queue ++ [recordReport x res] <+: (placeItem (.record x res) s).reports.queue ∧
        dropRecord x.tag s.offer.records <+: (placeItem (.record x res) s).offer.records := by
  have left := onlyTickets_leaveList x (pushReport (recordReport x res) s)
  have freed := onlyTickets_placeFreed x.source (leaveList x (pushReport (recordReport x res) s))
  refine ⟨((onlyTickets_pushReport _ s).trans left).trans freed, left.reports.trans freed.reports, ?_⟩
  have kept := placeFreed_keeps x.source (leaveList x (pushReport (recordReport x res) s))
  rwa [leaveList_records] at kept

end

/-- Settles O20: the queue has gained a place, and the item with the least number takes it. -/
theorem reportReturnsOldest : Obligations.ReportReturnsOldest := by
  refine ⟨fun x res => by cases res <;> rfl, fun s run => ?_⟩
  rw [exec_of_run run]
  refine ⟨fun empty => congrArg _ (reportCommand_empty empty), fun r rest queue none drain => ?_,
    fun r rest n item queue sound mem least => ?_⟩
  · refine congrArg _ ((reportCommand_oldest queue).trans ?_)
    rw [Report.bytes_eq, placeWaiting_none (s := { s with reports.queue := rest }) none]
    have same : testDrain { s with reports.queue := rest } = { s with reports.queue := rest } := testDrain_sound drain
    rw [same]
    rfl
  · obtain ⟨-, -, few, -⟩ := sound
    have room : rest.length < 16 := by rw [queue, List.length_cons] at few; omega
    have placed : placeWaiting { s with reports.queue := rest } = placeItem item { s with reports.queue := rest } :=
      placeWaiting_least (s := { s with reports.queue := rest }) room mem least
    obtain ⟨bus, claim, work, offer, reports, sources, port⟩ := testDrain_beside (placeItem item { s with reports.queue := rest })
    refine ⟨respond .ok r.bytes (testDrain (placeItem item { s with reports.queue := rest })), ?_, ?_⟩
    · rw [← placed]
      exact congrArg _ (reportCommand_oldest queue)
    · cases item with
      | record x res =>
        obtain ⟨only, grown, dropped⟩ := placeItem_record x res { s with reports.queue := rest }
        refine ⟨?_, bus.trans only.bus, claim.trans only.claim, testDrain_tested (s := s) only.control, ?_, ?_, work.trans only.work⟩
        · rw [respond_port, port, only.port, Report.bytes_eq]
          rfl
        · exact reports ▸ grown
        · exact offer ▸ dropped
      | copy notice how =>
        have freed : placeItem (.copy notice how) { s with reports.queue := rest } = { s with
            reports.queue := rest ++ [copyReport notice how], work := (freeCopy notice.ref s).work } := by
          change freeCopy notice.ref (pushReport (copyReport notice how) { s with reports.queue := rest }) = _
          cases notice.ref <;> rfl
        rw [freed] at bus claim work offer reports sources port ⊢
        refine ⟨?_, bus, claim, testDrain_tested (s := s) rfl, ?_, offer, sources, work⟩
        · rw [respond_port, port, Report.bytes_eq]
          rfl
        · refine (congrArg ReportUnit.queue reports).trans ?_
          cases how <;> rfl

end Sys2Proof.Machine
end

section
/-! PROOFS. Request lines and the local port: a level line active and any line inactive (R65, R69), the bytes of a command (R174 to
R177) and the response at SDO (R174, R194). -/

namespace Sys2Proof.Machine

/-! ### A level line (R69) -/

section
variable {l : Line} {s : State}

theorem waitingSource_turned (inactive : lineActive s l = false) :
    waitingSource (setEntry l (turnedEntry (entryAt s l)) s) l = (s.control.state.creates && !(entryAt s l).masked &&
      ((entryAt s l).state == .latched || (isLevel s l && (entryAt s l).state == .quiet && !(entryAt s l).hold))) := by
  have active : lineActive (setEntry l (turnedEntry (entryAt s l)) s) l = true := by
    unfold lineActive at inactive ⊢
    rw [entryAt_setEntry, if_pos rfl]
    simpa [turnedEntry, Bool.eq_not] using inactive
  unfold waitingSource
  rw [active, entryAt_setEntry, if_pos rfl]
  simp [turnedEntry, isLevel]

theorem lineActivated_level (level : (s.control.config.sourceConfig l).trigger = .level) (inactive : lineActive s l = false) :
    lineActivated l s = serveSources (serveSource l (setEntry l (turnedEntry (entryAt s l)) s)) := by
  have turned : isLevel (setEntry l (turnedEntry (entryAt s l)) s) l = true := isLevel_iff.2 level
  unfold lineActivated lineActs
  rw [inactive, takeLevel_activeLevel inactive, turned]
  rfl

end

/-- Settles O26: in a sound station no other source waits beside a free place, so the entry makes its own record or none. -/
theorem levelLineByEntryState : Obligations.LevelLineByEntryState := by
  intro l s run level inactive sound taken
  rw [exec_of_run run]
  have acts : effect (.lineBecomesActive l) s = serveSources (serveSource l (setEntry l taken s)) :=
    lineActivated_level level inactive
  rw [acts]
  refine ⟨fun idle unlatched => ?_, fun creating unmasked unheld quiet room => ?_⟩
  · have nothing : (∀ k, waitingSource (setEntry l taken s) k = false) ∨ 32 ≤ s.offer.records.length := by
      refine (lt_or_ge s.offer.records.length 32).imp_left fun room k => ?_
      by_cases own : l = k
      · subst own
        rw [show taken = turnedEntry (entryAt s l) from rfl, waitingSource_turned inactive]
        rcases idle with silent | masked | held | busy | full
        · rw [not_creates_iff.2 silent]; rfl
        · rw [masked, Bool.not_true, Bool.and_false]; rfl
        · simp [unlatched, held]
        · simp [unlatched, busy]
        · omega
      · rw [waitingSource_setEntry_of_ne own, sound.not_waiting room]
    have alone : serveSource l (setEntry l taken s) = setEntry l taken s :=
      serveSource_idle (nothing.imp_left fun none => none l)
    rw [alone, serveSources_idle nothing]
    rfl
  · have waits : waitingSource (setEntry l taken s) l = true := by
      rw [show taken = turnedEntry (entryAt s l) from rfl, waitingSource_turned inactive]
      simp [creates_iff.2 creating, unmasked, unheld, quiet, isLevel_iff.2 level]
    rw [serveSource_waiting waits room, serveSources_makeSourceRecord sound room]
    have only := onlyTickets_makeSourceRecord l (setEntry l taken s)
    refine ⟨_, nextTag s, rfl, nextTag_firstFree room, makeSourceRecord_setEntry_madeIn l taken s, only.port, only.bus,
      only.control, only.claim, only.work, fun k other => ?_, entryAt_makeSourceRecord_meets, fun apart => ?_⟩
    · rw [entryAt_makeSourceRecord other.symm, entryAt_setEntry, if_neg other.symm]
    · refine (entryAt_makeSourceRecord_noPeer apart).trans ?_
      rw [isLevel_iff.2 level, Bool.true_or]

/-! ### A line inactive (R65, R69) -/

theorem lineInactivated_active {l : Line} {s : State} (active : lineActive s l = true) : lineInactivated l s = { s with
    sources := s.sources.set l { entryAt s l with
      takenHigh := !(entryAt s l).takenHigh
      oppositeSeen := false
      hold := if (s.control.config.sourceConfig l).trigger = .level then false else (entryAt s l).hold } } := by
  have level : (!activeLevel s l) = !(entryAt s l).takenHigh := congrArg (!·) (beq_iff_eq.1 active).symm
  unfold lineInactivated
  rw [if_pos active, level]
  simp only
  by_cases trigger : (s.control.config.sourceConfig l).trigger = .level
  · rw [if_pos (isLevel_iff.2 trigger), if_pos trigger]
    simp [takeLevel, setEntry_setEntry, entryAt_setEntry]
    rfl
  · rw [if_neg (fun is => trigger (isLevel_iff.1 is)), if_neg trigger]
    rfl

/-- Settles O27. -/
theorem inactiveLineClearsHold : Obligations.InactiveLineClearsHold := by
  intro l s run
  rw [exec_of_run run, exec_of_run run]
  refine ⟨fun active => ⟨congrArg _ (if_pos active), congrArg _ (lineInactivated_active active)⟩, fun inactive => ?_⟩
  exact congrArg _ (if_neg (by rw [inactive]; exact Bool.false_ne_true))

/-! ### The bytes of a command (R174 to R177) -/

theorem decodePort_unnamed {b : Byte} (unnamed : namesCommand b = false) : decodePort [b] = some (.unknownCommandByte b) := by
  have outside : ¬ (1 ≤ b.toNat ∧ b.toNat ≤ 17) := of_decide_eq_false unnamed
  unfold decodePort
  simp only
  split
  case h_35 => rfl
  case h_36 => contradiction
  all_goals omega

theorem ofNat_ofBytes_two (v : BitVec 16) : BitVec.ofNat 16 (ofBytes (toBytes 2 v.toNat)) = v := by
  rw [ofBytes_toBytes_two _ v.isLt, BitVec.ofNat_toNat, BitVec.setWidth_eq]

theorem ofNat_ofBytes_four (v : BitVec 32) : BitVec.ofNat 32 (ofBytes (toBytes 4 v.toNat)) = v := by
  rw [ofBytes_toBytes_four _ v.isLt, BitVec.ofNat_toNat, BitVec.setWidth_eq]

theorem ofNat_ofBytes_five (v : BitVec 40) : BitVec.ofNat 40 (ofBytes (toBytes 5 v.toNat)) = v := by
  rw [ofBytes_toBytes_five _ v.isLt, BitVec.ofNat_toNat, BitVec.setWidth_eq]

/-- Settles O54: a command byte fixes how many parameters follow it, and the numbers among them read back. -/
theorem portBytesReadBack : Obligations.PortBytesReadBack := by
  intro c bytes wellFormed sent
  cases c with
  | unknownCommandByte b =>
    cases sent
    refine ⟨decodePort_unnamed (by simpa [Instr.wellFormed] using wellFormed), fun k less => ?_⟩
    obtain rfl : k = 0 := Nat.lt_one_iff.1 less
    rfl
  | configWrite g f v =>
    cases sent
    refine ⟨congrArg (fun v => some (Instr.configWrite g f v)) (ofNat_ofBytes_five v), fun k less => ?_⟩
    change k < 8 at less
    interval_cases k <;> rfl
  | submit c l p set a =>
    cases sent
    refine ⟨?_, fun k less => ?_⟩
    · refine Eq.trans (b := some (Instr.submit c l p (BitVec.ofNat 16 (ofBytes (toBytes 2 set.toNat)))
        (BitVec.ofNat 32 (ofBytes (toBytes 4 a.toNat))))) rfl ?_
      rw [ofNat_ofBytes_two, ofNat_ofBytes_four]
    · change k < 10 at less
      interval_cases k <;> rfl
  | touch a =>
    cases sent
    refine ⟨congrArg (fun a => some (Instr.touch a)) (ofNat_ofBytes_four a), fun k less => ?_⟩
    change k < 5 at less
    interval_cases k <;> rfl
  | configRead | finish | mask =>
    cases sent
    refine ⟨rfl, fun k less => ?_⟩
    change k < 3 at less
    interval_cases k <;> rfl
  | cancel | query | handBack =>
    cases sent
    refine ⟨rfl, fun k less => ?_⟩
    change k < 2 at less
    interval_cases k <;> rfl
  | join | drain | restart | take | report | status | forget | roster =>
    cases sent
    refine ⟨rfl, fun k less => ?_⟩
    obtain rfl : k = 0 := Nat.lt_one_iff.1 less
    rfl
  | _ => cases sent

/-! ### The response at SDO (R174, R194) -/

theorem numBits_byte (b : Byte) (j : Nat) (inside : j < 8) : (numBits b)[j]? = some (b.getLsbD (7 - j)) := by
  unfold numBits
  rw [List.getElem?_map, List.getElem?_range inside, Option.map_some, BitVec.getMsbD, decide_eq_true inside, Bool.true_and]

theorem responseBits_length (bytes : List Byte) : (bytes.flatMap numBits).length = 8 * bytes.length := by
  induction bytes with
  | nil => rfl
  | cons b bytes ih =>
    rw [List.flatMap_cons, List.length_append, ih, List.length_cons]
    unfold numBits
    rw [List.length_map, List.length_range]
    omega

/-- Bit `j` of byte `k`, most significant first. -/
theorem responseBits_get (bytes : List Byte) {k j : Nat} {byte : Byte} (held : bytes[k]? = some byte) (inside : j < 8) :
    (bytes.flatMap numBits)[8 * k + j]? = some (byte.getLsbD (7 - j)) := by
  have eight (b : Byte) : (numBits b).length = 8 := by rw [numBits, List.length_map, List.length_range]
  induction bytes generalizing k with
  | nil => cases held
  | cons b bytes ih =>
    rw [List.flatMap_cons]
    cases k with
    | zero =>
      cases held
      rw [List.getElem?_append_left (by rw [eight]; omega), Nat.mul_zero, Nat.zero_add]
      exact numBits_byte _ j inside
    | succ k =>
      rw [List.getElem?_append_right (by rw [eight]; omega), eight, show 8 * (k + 1) + j - 8 = 8 * k + j by omega]
      exact ih held

section
variable {s : State}

theorem sdo_response (active : s.port.active = true) (taken : s.port.taken = true) :
    sdo s = some ((s.port.response.flatMap numBits)[s.port.shifted]?.getD true) := by
  unfold sdo
  rw [active, taken]
  rfl

theorem sdo_released (idle : s.port.active = false) : sdo s = none := by
  unfold sdo
  rw [idle]
  rfl

theorem sdo_after (active : s.port.active = true) (taken : s.port.taken = true)
    (past : 8 * s.port.response.length ≤ s.port.shifted) : sdo s = some true := by
  rw [sdo_response active taken, List.getElem?_eq_none (by rw [responseBits_length]; exact past)]
  rfl

theorem portRise_active (s : State) : (portRise s).port.active = false := by
  unfold portRise
  simp only
  split <;> rfl

theorem portClock_taken (active : s.port.active = true) (taken : s.port.taken = true) (sdi : Bool) :
    portClock sdi s = { s with port.shifted := s.port.shifted + 1 } := by
  unfold portClock
  rw [active, taken]
  rfl

end

/-- Settles O24. -/
theorem portEventsHaveNoEffect : Obligations.PortEventsHaveNoEffect := by
  intro b s run
  rw [exec_of_run run, exec_of_run run]
  refine ⟨rfl, fun outside => decodePort_unnamed (decide_eq_false (by omega)), fun sdi active taken => ⟨?_, fun response past => ?_⟩,
    fun code bytes => ⟨?_, rfl⟩, fun active taken => ⟨fun k j byte held inside position => ?_, sdo_after active taken⟩,
    sdo_released, sdo_released (portRise_active s), rfl⟩
  · exact portClock_taken active taken sdi
  · exact sdo_after active taken (by rw [response]; exact past)
  · cases code <;> rfl
  · rw [sdo_response active taken, position, responseBits_get _ held inside]
    rfl

end Sys2Proof.Machine
end

section
/-! PROOFS. The timers (R84 to R87, R107, R108), and what frames of others need to be events (R18 to R21, R26, R32, R53). -/

namespace Sys2Proof.Machine

/-! ### The tick (R84, R85) -/

/-- Settles O29. -/
theorem tickCountsTimersDown : Obligations.TickCountsTimersDown := by
  intro s run
  refine ⟨tick s, by rw [exec_of_run run]; rfl, rfl, rfl, List.length_map _, fun i r held => ?_, rfl⟩
  change (s.offer.records.map fun r => { r with state := tickState r.state })[i]? = _
  rw [List.getElem?_map, held, Option.map_some]
  cases state : r.state with
  | outstanding c timer => cases timer <;> rfl
  | _ => rfl

/-! ### Expiries (R87, R107, R108) -/

section
variable {s : State}

/-- What a resolution leaves behind is read from the list and the report unit. -/
theorem ResolvedIn.of_eq {r : OutRecord} {res : Resolution} {t u : State} (h : ResolvedIn r res s t)
    (reports : u.reports = t.reports) (records : u.offer.records = t.offer.records) : ResolvedIn r res s u := by
  unfold ResolvedIn at h ⊢
  rwa [reports, records]

theorem putRecord_eq (r : OutRecord) (s : State) :
    putRecord r s = { s with offer.records := s.offer.records.map fun x => if x.tag = r.tag then r else x } := by
  simp only [putRecord, beq_iff_eq]

theorem backoffExpired_due {tag : Tag} {r : OutRecord} (found : findRecord tag s.offer.records = some r)
    (due : r.state = .backoff 0) : backoffExpired tag s = putRecord { r with state := .waiting } s := by
  unfold backoffExpired
  rw [found]
  exact if_pos due

theorem backoffExpired_none {tag : Tag} (none : ∀ r ∈ s.offer.records, r.tag = tag → r.state ≠ .backoff 0) :
    backoffExpired tag s = s := by
  unfold backoffExpired
  split
  · rename_i r found
    obtain ⟨mem, same⟩ := findRecord_mem found
    exact if_neg (none r mem same)
  · rfl

theorem deadlineDue_iff {st : RecordState} : st.deadlineDue = true ↔ ∃ c, st = .outstanding c (some 0) := by
  cases st with
  | outstanding c timer =>
    rcases timer with _ | (_ | n)
    · simp [RecordState.deadlineDue]
    · simp [RecordState.deadlineDue]
    · simp [RecordState.deadlineDue]
  | _ => simp [RecordState.deadlineDue]

theorem deadlineExpired_due {tag : Tag} {r : OutRecord} (found : findRecord tag s.offer.records = some r)
    (due : ∃ c, r.state = .outstanding c (some 0)) : deadlineExpired tag s = testDrain (lapse r s) := by
  unfold deadlineExpired
  rw [found]
  exact if_pos (deadlineDue_iff.2 due)

theorem deadlineExpired_none {tag : Tag}
    (none : ∀ r ∈ s.offer.records, r.tag = tag → ∀ c, r.state ≠ .outstanding c (some 0)) : deadlineExpired tag s = s := by
  unfold deadlineExpired
  split
  · rename_i r found
    obtain ⟨mem, same⟩ := findRecord_mem found
    refine if_neg fun due => ?_
    obtain ⟨c, state⟩ := deadlineDue_iff.1 due
    exact none r mem same c state
  · rfl

/-- With a record in play in the list the drain is not complete. -/
theorem testDrain_inPlay {r : OutRecord} (mem : r ∈ s.offer.records) (play : r.state.inPlay = true) : testDrain s = s := by
  unfold testDrain
  refine if_neg fun ⟨_, _, complete⟩ => ?_
  exact nomatch ((drainComplete_iff.1 complete).2.2 r mem).symm.trans play

theorem mem_putRecord {r x : OutRecord} (mem : x ∈ s.offer.records) (tag : r.tag = x.tag) :
    r ∈ (putRecord r s).offer.records := List.mem_map.2 ⟨x, mem, by simp [tag]⟩

end

/-- Settles O30: the record that holds the tag is the one due, or none is. -/
theorem expiriesMoveRecords : Obligations.ExpiriesMoveRecords := by
  intro tag s run ⟨_, nodup, _⟩
  rw [exec_of_run run, exec_of_run run]
  refine ⟨fun none => congrArg _ (backoffExpired_none none), fun none => congrArg _ (deadlineExpired_none none), ?_⟩
  rintro r mem rfl
  have found := findRecord_of_mem nodup mem
  refine ⟨fun due => congrArg _ ((backoffExpired_due found due).trans (putRecord_eq _ s)), fun due => ⟨fun below => ?_, fun limit => ?_⟩⟩
  · refine congrArg _ ((deadlineExpired_due found due).trans ?_)
    have lapsed : lapse r s = putRecord { r with generation := r.generation + 1, attempts := 0, state := .waiting } s := if_pos below
    have put := mem_putRecord (r := { r with generation := r.generation + 1, attempts := 0, state := .waiting }) mem rfl
    rw [lapsed, testDrain_inPlay put rfl, putRecord_eq]
  · have lapsed : lapse r s = resolveRecord r (.lapsed r.attempts) s := if_neg (not_lt.2 limit)
    have only := onlyTickets_resolveRecord r (.lapsed r.attempts) s
    obtain ⟨-, -, -, offer, reports, -, port⟩ := testDrain_beside (resolveRecord r (.lapsed r.attempts) s)
    refine ⟨_, congrArg _ ((deadlineExpired_due found due).trans (congrArg testDrain lapsed)),
      (resolveRecord_resolved r _ s).of_eq reports (by rw [offer]), ticketsThenDrain_testDrain only, port.trans only.port⟩

/-! ### Synchronisation and reception (R18 to R21, R26) -/

section
variable {s : State}

theorem receiving_iff : s.receiving = true ↔ s.bus.synchronised = true ∧ s.control.state.receives = true := by
  unfold State.receiving
  rw [Bool.and_eq_true]

theorem whenReceiving_received (receiving : s.receiving = true) (f : State → State) : whenReceiving f s = f s := if_pos receiving

theorem whenReceiving_silent (silent : s.receiving = false) (f : State → State) : whenReceiving f s = s := by
  unfold whenReceiving
  rw [silent]
  rfl

theorem fromStation_received {sender : StationNumber} (receiving : s.receiving = true) (known : sender ≠ 15)
    (f : State → State) : fromStation sender f s = f s := by
  unfold fromStation
  rw [receiving, if_pos (by simpa using known)]

theorem fromStation_silent (silent : s.receiving = false) (sender : StationNumber) (f : State → State) :
    fromStation sender f s = s := by
  unfold fromStation
  rw [silent]
  rfl

theorem fromStation_noStation (f : State → State) (s : State) : fromStation 15 f s = s := by
  unfold fromStation
  exact if_neg (by simp)

theorem claimRead_none (none : s.claim.offerInHand = none) (bid : BitVec 6) (claimant : StationNumber) (confirm : Bool) :
    claimRead bid claimant confirm s = s := by
  unfold claimRead
  rw [none]

end

/-- Settles O32. -/
theorem quietAndUnreadableKind : Obligations.QuietAndUnreadableKind := by
  intro kind s run
  rw [exec_of_run run, exec_of_run run]
  change (_ → _ → Host.Outcome.next (quietSeen s) = _ ∧ Host.Outcome.next (whenReceiving loseSynchronisation s) = _) ∧
    (_ → _ → Host.Outcome.next (quietSeen s) = _ ∧ Host.Outcome.next (whenReceiving loseSynchronisation s) = _) ∧
      (_ → Host.Outcome.next (quietSeen s) = _ ∧ Host.Outcome.next (whenReceiving loseSynchronisation s) = _)
  unfold quietSeen
  refine ⟨fun receives unsynchronised => ⟨?_, ?_⟩, fun receives synchronised => ⟨?_, ?_⟩, fun silent => ⟨?_, ?_⟩⟩
  · rw [receives, unsynchronised]; rfl
  · rw [whenReceiving_silent (by unfold State.receiving; rw [unsynchronised]; rfl)]
  · rw [receives, synchronised]; rfl
  · rw [whenReceiving_received (receiving_iff.2 ⟨synchronised, receives⟩)]; rfl
  · rw [silent]; rfl
  · rw [whenReceiving_silent (by unfold State.receiving; rw [silent, Bool.and_false])]

/-- The sender of the frame that a command hands over at one of the points of R26. -/
def frameSender : Instr → Option StationNumber
  | .offerValidated o => some o.sender
  | .noticeReceived n => some n.sender
  | .noticeSenderLearned sender => some sender
  | .joinAnswer sender => some sender
  | .joinReceived sender _ _ => some sender
  | .leaveReceived sender => some sender
  | _ => none

theorem effect_frame {c : Instr} {sender : StationNumber} (sent : frameSender c = some sender) :
    ∃ f, effect c = fromStation sender f := by
  cases c <;> cases sent <;> exact ⟨_, rfl⟩

theorem exec_frame_silent {c : Instr} {sender : StationNumber} {s : State} (sent : frameSender c = some sender)
    (run : s.held = false) (silent : s.receiving = false) : exec c s = .next s := by
  obtain ⟨f, is⟩ := effect_frame sent
  rw [exec_of_run run, is, fromStation_silent silent]

theorem exec_frame_noStation {c : Instr} {s : State} (sent : frameSender c = some 15) (run : s.held = false) :
    exec c s = .next s := by
  obtain ⟨f, is⟩ := effect_frame sent
  rw [exec_of_run run, is, fromStation_noStation]

/-- Settles O33. -/
theorem framesNeedReception : Obligations.FramesNeedReception := by
  intro s run
  have lost (f : State → State) (silent : s.receiving = false) : Host.Outcome.next (whenReceiving f s) = (.next s : Result) := by
    rw [whenReceiving_silent silent]
  have unread {c : Instr} {sender : StationNumber} (sent : frameSender c = some sender) (silent : s.receiving = false) :=
    exec_frame_silent sent run silent
  refine ⟨fun silent => ⟨fun _ => (exec_of_run run _).trans (lost _ silent), fun _ => unread rfl silent,
      fun _ _ _ => (exec_of_run run _).trans (lost _ silent), fun _ => unread rfl silent, fun _ => unread rfl silent,
      fun _ => unread rfl silent, fun _ _ _ => unread rfl silent, fun _ => unread rfl silent,
      (exec_of_run run _).trans (lost _ silent)⟩,
    fun o none => exec_frame_noStation (congrArg some none) run, fun n none => exec_frame_noStation (congrArg some none) run,
    exec_frame_noStation rfl run, exec_frame_noStation rfl run, fun _ _ => exec_frame_noStation rfl run,
    exec_frame_noStation rfl run, fun none bid claimant confirm => (exec_of_run run _).trans (congrArg _ ?_)⟩
  change whenReceiving (claimRead bid claimant confirm) s = s
  unfold whenReceiving
  rw [claimRead_none none, ite_self]

/-! ### The claim as read (R32, R53) -/

/-- The state in which the winner's commit, if any, is made (R32). -/
theorem claimRead_held {h : OfferInHand} {s : State} (held : s.claim.offerInHand = some h) (bid : BitVec 6)
    (claimant : StationNumber) (confirm : Bool) : claimRead bid claimant confirm s =
      if confirm then
        if winsClaim h bid claimant s then commitClaim h (claimLearned h.offer.sender claimant s)
        else claimLearned h.offer.sender claimant s
      else { s with
        control.roster := setAdd s.control.roster h.offer.sender, claim.offerInHand := none, bus.answer := .none } := by
  unfold claimRead
  rw [held]
  rfl

/-- Settles O35. -/
theorem claimReadLearnsAndEnds : Obligations.ClaimReadLearnsAndEnds := by
  intro bid claimant s run h receiving held
  have read (confirm : Bool) : exec (.claimAsRead bid claimant confirm) s = .next (claimRead bid claimant confirm s) :=
    (exec_of_run run _).trans (congrArg _ (whenReceiving_received receiving _))
  rw [read, read, claimRead_held held, claimRead_held held]
  refine ⟨rfl, fun loses => congrArg _ ?_⟩
  rw [if_pos rfl]
  split
  case isFalse => rfl
  case isTrue wins =>
    simp only [winsClaim, Bool.and_eq_true, beq_iff_eq] at wins
    obtain ⟨⟨still, own⟩, number⟩ := wins
    rcases loses with out | other | another | left
    · rw [out] at still; cases still
    · exact absurd own other
    · exact absurd number another
    · exact if_neg left

end Sys2Proof.Machine
end

section
/-! PROOFS. SUBMIT and CANCEL (R82, R95), and free places to the waiting sources, lowest line number first (R70, R71). -/

namespace Sys2Proof.Machine

/-! ### SUBMIT (R80 to R83, R182) -/

section
variable {cls level flag : Byte} {set : BitVec 16} {addr : Address} {s : State}

theorem submitInRange_iff : submitInRange cls level flag set = true ↔
    cls.toNat ≤ 31 ∧ level.toNat ≤ 7 ∧ flag.toNat ≤ 1 ∧ set.toNat < 32768 := by
  have top : set.getLsbD 15 = false ↔ set.toNat < 32768 := by
    rw [← BitVec.msb_eq_getLsbD_last, BitVec.msb_eq_false_iff_two_mul_lt]
    omega
  unfold submitInRange
  rw [Bool.and_eq_true, decide_eq_true_eq, Bool.not_eq_true', top, and_assoc, and_assoc]

theorem submitCommand_state (silent : s.control.state.creates = false) :
    submitCommand cls level flag set addr s = answer .state s := by
  unfold submitCommand
  rw [silent]
  rfl

theorem submitCommand_param (creates : s.control.state.creates = true)
    (outside : ¬ submitInRange cls level flag set = true) : submitCommand cls level flag set addr s = answer .param s := by
  unfold submitCommand
  rw [creates, Bool.eq_false_iff.2 outside]
  rfl

theorem submitCommand_full (creates : s.control.state.creates = true) (inside : submitInRange cls level flag set = true)
    (full : 32 ≤ s.offer.records.length) : submitCommand cls level flag set addr s = answer .full s := by
  have taken : recordRoom s = false := decide_eq_false (not_lt.2 full)
  unfold submitCommand
  rw [creates, inside, taken]
  rfl

theorem submitCommand_made (creates : s.control.state.creates = true) (inside : submitInRange cls level flag set = true)
    (room : s.offer.records.length < 32) : submitCommand cls level flag set addr s =
      respond .ok [nextTag s] (createAndServe (submitFields cls level flag set addr) s) := by
  unfold submitCommand
  rw [creates, inside, recordRoom_iff.2 room]
  rfl

/-- In a sound station with a place free no source takes another place after a SUBMIT. -/
theorem createAndServe_sound {f : TicketFields} (soft : f.source = .soft) (sound : s.ServedSound)
    (room : s.offer.records.length < 32) : createAndServe f s = createRecord f s := by
  have sources := createRecord_soft_sources soft s
  refine serveSources_none fun l => ?_
  rw [waitingSource_congr (onlyTickets_createRecord f s).control (by unfold entryAt; rw [sources])]
  exact sound.not_waiting room l

/-- What was made from `s` to `t` is read from the offer unit and the report unit. -/
theorem MadeIn.of_eq {r : OutRecord} {t u : State} (h : MadeIn r s t) (offer : u.offer = t.offer)
    (reports : u.reports = t.reports) : MadeIn r s u := by
  unfold MadeIn ResolvedIn at h ⊢
  rwa [offer, reports]

end

/-- Settles O13. -/
theorem submitChecksAndMakesRecord : Obligations.SubmitChecksAndMakesRecord := by
  intro cls level flag set addr s run
  rw [exec_of_run run]
  refine ⟨fun offline unmuted => congrArg _ (submitCommand_state (not_creates_iff.2 ⟨offline, unmuted⟩)),
    fun creating outside => congrArg _ (submitCommand_param (creates_iff.2 creating) fun is => outside (submitInRange_iff.1 is)),
    fun creating inside full => congrArg _ (submitCommand_full (creates_iff.2 creating) (submitInRange_iff.2 inside) full),
    fun creating inside room sound => ?_⟩
  set f := submitFields cls level flag set addr
  have made : createAndServe f s = createRecord f s := createAndServe_sound rfl sound room
  have only := onlyTickets_createRecord f s
  refine ⟨respond .ok [nextTag s] (createRecord f s), newRecord f s, ?_, nextTag_firstFree room, ?_,
    (createRecord_madeIn f s).of_eq rfl rfl, ?_, ?_, createRecord_soft_sources rfl s⟩
  · refine congrArg _ ((submitCommand_made (creates_iff.2 creating) (submitInRange_iff.2 inside) room).trans ?_)
    rw [made]
  · simp [newRecord, f, submitFields, BitVec.ofNat_toNat]
  · rw [respond_port, respond_port, only.port]
    rfl
  · have beside := only.beside s.bus s.control s.claim (respond .ok [nextTag s] (createRecord f s)).port
    rwa [show ({ createRecord f s with
      bus := s.bus, control := s.control, claim := s.claim, port := (respond .ok [nextTag s] (createRecord f s)).port } : State) =
      respond .ok [nextTag s] (createRecord f s) by rw [← only.bus, ← only.control, ← only.claim]; rfl] at beside

/-! ### CANCEL (R95, R96) -/

section
variable {tag : Tag} {s : State}

theorem cancelCommand_stopped (stopped : s.control.state.started = false) : cancelCommand tag s = answer .state s := by
  unfold cancelCommand
  rw [stopped]
  rfl

theorem cancelCommand_unknown (started : s.control.state.started = true) (free : ∀ r ∈ s.offer.records, r.tag ≠ tag) :
    cancelCommand tag s = answer .unknown s := by
  unfold cancelCommand
  rw [started, findRecord_none.2 free]
  rfl

theorem cancelCommand_held {r : OutRecord} (started : s.control.state.started = true)
    (nodup : (s.offer.records.map (·.tag)).Nodup) (mem : r ∈ s.offer.records) : cancelCommand r.tag s = cancelRecord r s := by
  unfold cancelCommand
  rw [started, findRecord_of_mem nodup mem]
  rfl

theorem cancelRecord_resolves {r : OutRecord} (s : State)
    (state : r.state = .waiting ∨ (∃ n, r.state = .backoff n) ∨ ∃ c timer, r.state = .outstanding c timer) :
    cancelRecord r s = answer .ok (testDrain (resolveRecord r .cancelled s)) := by
  unfold cancelRecord
  rcases state with state | ⟨n, state⟩ | ⟨c, timer, state⟩ <;> rw [state]

end

/-- Settles O14. -/
theorem cancelByRecordState : Obligations.CancelByRecordState := by
  intro tag s run
  rw [exec_of_run run]
  refine ⟨fun stopped => congrArg _ (cancelCommand_stopped (not_started_iff.2 stopped)),
    fun configured numbered free => congrArg _ (cancelCommand_unknown (started_iff.2 ⟨configured, numbered⟩) free), ?_⟩
  rintro r mem rfl ⟨-, nodup, -⟩ configured numbered
  have held := cancelCommand_held (started_iff.2 ⟨configured, numbered⟩) nodup mem
  refine ⟨fun ⟨res, n, resolved⟩ => congrArg _ (held.trans ?_), fun ⟨c, offering⟩ => congrArg _ (held.trans ?_), fun state => ?_⟩
  · unfold cancelRecord
    rw [resolved]
  · unfold cancelRecord
    rw [offering]
    exact congrArg (answer .ok) (putRecord_eq _ s)
  · have only := onlyTickets_resolveRecord r .cancelled s
    obtain ⟨-, -, -, offer, reports, -, port⟩ := testDrain_beside (resolveRecord r .cancelled s)
    refine ⟨_, congrArg _ (held.trans (cancelRecord_resolves s state)),
      (resolveRecord_resolved r .cancelled s).of_eq reports (congrArg OfferUnit.records offer),
      ticketsThenDrain_respond only _ _, ?_⟩
    rw [answer_port, port, only.port]
    rfl

/-! ### One source served (R66, R71) -/

section
variable {l : Line} {s : State}

/-- The state with the line's record at the end of the list and its entry LIVE (R66). -/
def lineServed (l : Line) (s : State) : State := { s with
  offer := { s.offer with records := s.offer.records ++ [lineRecord l (nextTag s) s], tagCounter := nextTag s + 1 }
  sources := s.sources.set l { entryAt s l with state := .live (nextTag s) false } }

theorem makeSourceRecord_meets (meets : setsMeet (s.control.config.sourceConfig l).dest s.control.roster = true) :
    makeSourceRecord l s = lineServed l s := if_pos meets

theorem entryAt_lineServed (k : Line) : entryAt (lineServed l s) k =
    if l = k then { entryAt s l with state := .live (nextTag s) false } else entryAt s k := vector_get_set _ _ _ _

theorem waitingSource_lineServed (meets : setsMeet (s.control.config.sourceConfig l).dest s.control.roster = true) (k : Line) :
    waitingSource (lineServed l s) k = if l = k then false else waitingSource s k := by
  rw [← makeSourceRecord_meets meets, makeSourceRecord_waiting]

theorem lowestWaiting_eq (waits : waitingSource s l = true) (first : ∀ k, k < l → waitingSource s k = false) :
    lowestWaiting s = some l := find?_finRange waits first

theorem serveWaiting_full (n : Nat) (full : 32 ≤ s.offer.records.length) : serveWaiting n s = s := by
  cases n with
  | zero => rfl
  | succ n =>
    unfold serveWaiting
    split
    · rfl
    · exact if_neg (by rw [recordRoom_iff]; omega)

theorem serveSources_lowest (waits : waitingSource s l = true) (first : ∀ k, k < l → waitingSource s k = false)
    (last : s.offer.records.length = 31) (meets : setsMeet (s.control.config.sourceConfig l).dest s.control.roster = true) :
    serveSources s = lineServed l s := by
  have room : recordRoom s = true := recordRoom_iff.2 (by omega)
  unfold serveSources serveWaiting
  rw [lowestWaiting_eq waits first]
  simp only [room, if_true]
  rw [makeSourceRecord_meets meets]
  exact serveWaiting_full _ (by simp [lineServed, last])

theorem placeFreed_own (waits : waitingSource s l = true) (last : s.offer.records.length = 31)
    (meets : setsMeet (s.control.config.sourceConfig l).dest s.control.roster = true) :
    placeFreed (.line l) s = lineServed l s := by
  change serveSources (serveSource l s) = _
  rw [serveSource_waiting waits (by omega), makeSourceRecord_meets meets]
  exact serveSources_full (by simp [lineServed, last])

theorem placeFreed_other (idle : waitingSource s l = false) : placeFreed (.line l) s = serveSources s := by
  change serveSources (serveSource l s) = _
  rw [serveSource_idle (.inl idle)]

end

/-! ### All sources served, in order (R71, R80) -/

theorem FirstFreeTag.of_eq {tag : Tag} {s t : State} (h : FirstFreeTag tag s) (records : t.offer.records = s.offer.records)
    (counter : t.offer.tagCounter = s.offer.tagCounter) : FirstFreeTag tag t := by
  unfold FirstFreeTag at h ⊢
  rwa [records, counter]

/-- The tag counter once the records of `before` have been made (R80). -/
def counterAfter (before : List OutRecord) (s : State) : Tag :=
  match before.getLast? with
  | some x => x.tag + 1
  | none => s.offer.tagCounter

/-- From `s` to `t` the lines `served` have each made their record, in that order. -/
structure ServedInOrder (s t : State) (served : List Line) (new : List OutRecord) : Prop where
  reports : t.reports = s.reports
  records : t.offer.records = s.offer.records ++ new
  sources : new.map (·.source) = served.map Source.line
  live : ∀ r ∈ new, ∀ l, r.source = .line l →
    r = lineRecord l r.tag s ∧ entryAt t l = { entryAt s l with state := .live r.tag false }
  others : ∀ l, l ∉ served → entryAt t l = entryAt s l
  tags : ∀ before r after, new = before ++ r :: after → FirstFreeTag r.tag { s with
    offer := { s.offer with records := s.offer.records ++ before, tagCounter := counterAfter before s } }

theorem servedInOrder_none (s : State) : ServedInOrder s s [] [] where
  reports := rfl
  records := (List.append_nil _).symm
  sources := rfl
  live := nofun
  others _ _ := rfl
  tags before r after h := absurd h (by simp)

theorem servedInOrder_cons {l : Line} {s t : State} {served : List Line} {new : List OutRecord} (fresh : l ∉ served)
    (room : s.offer.records.length < 32) (h : ServedInOrder (lineServed l s) t served new) :
    ServedInOrder s t (l :: served) (lineRecord l (nextTag s) s :: new) where
  reports := h.reports
  records := by rw [h.records]; simp [lineServed]
  sources := congrArg (Source.line l :: ·) h.sources
  live r mem k source := by
    rcases List.mem_cons.1 mem with rfl | later
    · cases source
      refine ⟨rfl, ?_⟩
      rw [h.others l fresh, entryAt_lineServed, if_pos rfl]
      rfl
    · obtain ⟨record, entry⟩ := h.live r later k source
      have named : Source.line k ∈ served.map Source.line := h.sources ▸ List.mem_map.2 ⟨r, later, source⟩
      obtain ⟨k', inServed, same⟩ := List.mem_map.1 named
      cases same
      refine ⟨record, entry.trans ?_⟩
      rw [entryAt_lineServed, if_neg (by rintro rfl; exact fresh inServed)]
  others k notServed := by
    rw [List.mem_cons, not_or] at notServed
    rw [h.others k notServed.2, entryAt_lineServed, if_neg fun same => notServed.1 same.symm]
  tags before r after split := by
    cases before with
    | nil =>
      cases split
      exact (nextTag_firstFree room).of_eq (List.append_nil _) rfl
    | cons x before =>
      rw [List.cons_append, List.cons.injEq] at split
      obtain ⟨rfl, split⟩ := split
      refine (h.tags before r after split).of_eq (by simp [lineServed]) ?_
      change counterAfter (_ :: before) s = counterAfter before (lineServed l s)
      unfold counterAfter
      rw [List.getLast?_cons]
      cases before.getLast? <;> rfl

/-- The first of the waiting lines, and those after it. -/
theorem filter_of_find? {α : Type} [DecidableEq α] {p : α → Bool} {xs : List α} {a : α} (nodup : xs.Nodup)
    (found : xs.find? p = some a) : xs.filter p = a :: xs.filter fun x => if a = x then false else p x := by
  obtain ⟨holds, before, after, rfl, none⟩ := List.find?_eq_some_iff_append.1 found
  have apart : ∀ x ∈ before ++ after, x ≠ a := by
    rw [List.nodup_middle, List.nodup_cons] at nodup
    exact fun x mem same => nodup.1 (same ▸ mem)
  have skipped : before.filter p = [] := List.filter_eq_nil_iff.2 fun x mem => by simpa using none x mem
  have skipped' : (before.filter fun x => if a = x then false else p x) = [] :=
    List.filter_eq_nil_iff.2 fun x mem => by simpa using fun _ => by simpa using none x mem
  rw [List.filter_append, List.filter_append, skipped, skipped', List.filter_cons_of_pos holds,
    List.filter_cons_of_neg (by simp), List.nil_append, List.nil_append]
  refine congrArg _ (List.filter_congr fun x mem => ?_)
  rw [if_neg fun same => apart x (List.mem_append_right _ mem) same.symm]

/-- Rounds enough serve the waiting lines in order while places last. -/
theorem serveWaiting_inOrder (n : Nat) {s : State} (bounded : s.offer.records.length ≤ 32)
    (enough : ((List.finRange 8).filter fun l => waitingSource s l).length ≤ n)
    (meets : ∀ l, waitingSource s l = true → setsMeet (s.control.config.sourceConfig l).dest s.control.roster = true) :
    ∃ new, ServedInOrder s (serveWaiting n s)
      (((List.finRange 8).filter fun l => waitingSource s l).take (32 - s.offer.records.length)) new := by
  induction n generalizing s with
  | zero =>
    rw [List.eq_nil_of_length_eq_zero (Nat.le_zero.1 enough), List.take_nil]
    exact ⟨[], servedInOrder_none s⟩
  | succ n ih =>
    unfold serveWaiting
    split
    case h_1 none =>
      have empty : ((List.finRange 8).filter fun l => waitingSource s l) = [] :=
        List.filter_eq_nil_iff.2 fun l _ => by simp [lowestWaiting_none.1 none l]
      rw [empty, List.take_nil]
      exact ⟨[], servedInOrder_none s⟩
    case h_2 l lowest =>
      have waits : waitingSource s l = true := List.find?_some lowest
      have later : ((List.finRange 8).filter fun k => waitingSource s k) =
          l :: (List.finRange 8).filter fun k => waitingSource (lineServed l s) k := by
        rw [filter_of_find? (List.nodup_finRange 8) lowest]
        simp only [waitingSource_lineServed (meets l waits)]
      split
      case isFalse full =>
        rw [recordRoom_iff] at full
        rw [show 32 - s.offer.records.length = 0 by omega, List.take_zero]
        exact ⟨[], servedInOrder_none s⟩
      case isTrue room =>
        rw [recordRoom_iff] at room
        have longer : (lineServed l s).offer.records.length = s.offer.records.length + 1 := by simp [lineServed]
        rw [later, List.length_cons] at enough
        obtain ⟨new, served⟩ := ih (s := lineServed l s) (by omega) (by omega) fun k waiting => by
          refine meets k ?_
          rw [waitingSource_lineServed (meets l waits)] at waiting
          split at waiting
          · cases waiting
          · exact waiting
        rw [makeSourceRecord_meets (meets l waits), later,
          show 32 - s.offer.records.length = (32 - (lineServed l s).offer.records.length) + 1 by omega, List.take_succ_cons]
        refine ⟨_, servedInOrder_cons (fun mem => ?_) room served⟩
        have again := (List.mem_filter.1 (List.mem_of_mem_take mem)).2
        rw [waitingSource_lineServed (meets l waits), if_pos rfl] at again
        cases again

/-! ### The place a line's record leaves (R70) -/

theorem entryAt_leaveList_latched {r : OutRecord} {l : Line} {tag : Tag} {s : State} (own : r.source = .line l)
    (live : (entryAt s l).state = .live tag true) :
    entryAt (leaveList r s) l = { entryAt s l with state := .latched } := by
  have kept : entryAt { s with offer.records := dropRecord r.tag s.offer.records } l = entryAt s l := rfl
  simp [leaveList, releaseSource, own, kept, live]

theorem numberDrawn_counted {res : Resolution} (known : res ≠ .noPeer) (r : OutRecord) (s : State) :
    numberDrawn r res s = countResolution s := if_neg known

theorem leavesAtOnce_iff {r : OutRecord} {s : State} :
    leavesAtOnce r s = true ↔ (classOf s r.cls).report = false ∨ s.reports.queue.length < 16 := by
  unfold leavesAtOnce
  rw [Bool.or_eq_true, Bool.not_eq_true', reportRoom_iff]

/-- A record with an edge latched, gone without waiting: its entry is LATCHED, and no other has changed (R67). -/
theorem fixResolution_latched {r : OutRecord} {res : Resolution} {l : Line} {tag : Tag} {s : State} (known : res ≠ .noPeer)
    (own : r.source = .line l) (live : (entryAt s l).state = .live tag true) (leaves : leavesAtOnce r s = true) :
    (fixResolution r res s).offer.records = dropRecord r.tag s.offer.records ∧
      entryAt (fixResolution r res s) l = { entryAt s l with state := .latched } := by
  rw [fixResolution_eq, numberDrawn_counted known]
  split
  case isFalse => exact ⟨leaveList_records _ _, entryAt_leaveList_latched (s := countResolution s) own live⟩
  case isTrue report =>
    have room : reportRoom s = true := reportRoom_iff.2 ((leavesAtOnce_iff.1 leaves).resolve_left (by simp [report]))
    rw [if_pos room]
    exact ⟨leaveList_records _ _, entryAt_leaveList_latched (s := pushReport _ (countResolution s)) own live⟩

theorem length_dropRecord {r : OutRecord} {records : List OutRecord} (nodup : (records.map (·.tag)).Nodup)
    (mem : r ∈ records) : (dropRecord r.tag records).length + 1 = records.length := by
  obtain ⟨before, after, rfl⟩ := List.append_of_mem mem
  have fresh : ∀ x ∈ before ++ after, x.tag ≠ r.tag := by
    rw [List.map_append, List.map_cons, List.nodup_middle, ← List.map_append, List.nodup_cons] at nodup
    exact fun x held same => nodup.1 (List.mem_map.2 ⟨x, held, same⟩)
  have dropped : dropRecord r.tag (before ++ r :: after) = before ++ after := by
    unfold dropRecord
    rw [List.filter_append, List.filter_cons_of_neg (by simp), ← List.filter_append]
    exact dropRecord_fresh fresh
  rw [dropped, List.length_append, List.length_append, List.length_cons]
  omega

theorem testDrain_elsewhere {s : State} (state : s.control.state ≠ .draining) : testDrain s = s :=
  if_neg fun ⟨draining, _⟩ => state draining

/-- Settles O28: the rounds of `serveWaiting` in order, and the own entry first where a line's record has left. -/
theorem freePlacesGoLowestLineFirst : Obligations.FreePlacesGoLowestLineFirst := by
  intro s
  refine ⟨serveSources_full, serveSources_none, fun l waits first last meets => ?_, fun bounded meets => ?_,
    serveSources_served s, rfl, fun l idle => placeFreed_other idle, fun l waits last meets => ?_,
    fun l r run creating sound full mem own state live unmasked leaves meets => ?_⟩
  · exact ⟨nextTag s, nextTag_firstFree (by omega), serveSources_lowest waits first last meets⟩
  · obtain ⟨new, served⟩ := serveWaiting_inOrder 8 bounded (le_trans (List.length_filter_le _ _) (by simp)) meets
    exact ⟨new, onlyTickets_serveSources s, served.reports, served.records, served.sources, served.live, served.others,
      served.tags⟩
  · exact ⟨nextTag s, nextTag_firstFree (by omega), placeFreed_own waits last meets⟩
  · obtain ⟨-, nodup, -⟩ := sound
    have creates := creates_iff.2 creating
    have started := started_of_creates creates
    have atOnce := leavesAtOnce_iff.2 leaves
    obtain ⟨records, entry⟩ := fixResolution_latched (res := .cancelled) nofun own live atOnce
    set u := fixResolution r .cancelled s
    have only : OnlyTickets s u := onlyTickets_fixResolution r .cancelled s
    have last : u.offer.records.length = 31 := by
      rw [records]
      have := length_dropRecord nodup mem
      omega
    have waits : waitingSource u l = true := by
      unfold waitingSource
      rw [entry, only.control, creates]
      simp [unmasked]
    have served : resolveRecord r .cancelled s = lineServed l u := by
      unfold resolveRecord
      rw [if_pos atOnce, own]
      exact placeFreed_own waits last (by rw [only.control]; exact meets)
    have stays : testDrain (lineServed l u) = lineServed l u := by
      refine testDrain_elsewhere ?_
      change u.control.state ≠ .draining
      rw [only.control]
      rcases creating with state | state <;> rw [state] <;> nofun
    have kept : lineRecord l (nextTag u) u = lineRecord l (nextTag u) s := by unfold lineRecord; rw [only.control]
    refine ⟨answer .ok (lineServed l u), nextTag u, ?_, ?_, ?_, ?_, fun k other => ?_⟩
    · rw [exec_of_run run]
      refine congrArg _ ((cancelCommand_held started nodup mem).trans ((cancelRecord_resolves s (.inl state)).trans ?_))
      rw [served, stays]
    · refine (nextTag_firstFree (s := u) (by omega)).of_eq records.symm ?_
      exact (fixResolution_tagCounter r .cancelled s).symm
    · change u.offer.records ++ [lineRecord l (nextTag u) u] = _
      rw [records, kept]
    · refine (entryAt_lineServed (l := l) (s := u) l).trans ?_
      rw [if_pos rfl, entry]
    · refine (entryAt_lineServed (l := l) (s := u) k).trans ?_
      rw [if_neg other.symm]
      exact entryAt_fixResolution (fun is => other (by cases own.symm.trans is; rfl)) .cancelled s

end Sys2Proof.Machine
end

section
/-! PROOFS. The station's own frames: the start by rank (R39, R40), the end of a LEAVE, a notice and an OFFER by its fate (R38, R57,
R89, R153 to R156), and the entry to MUTED at a count of 32 (R42). -/

namespace Sys2Proof.Machine

/-! ### The start (R39, R40) -/

section
variable {s : State}

theorem freeToStart_iff : freeToStart s = true ↔ s.control.state.sends = true ∧ s.bus.synchronised = true ∧
    s.bus.ownFrame = none ∧ s.bus.position = none := by
  simp only [freeToStart, Bool.and_eq_true, Option.isNone_iff_eq_none, and_assoc]

/-- FRAME_START in a unit free to start. -/
theorem effect_frameStart (free : freeToStart s = true) :
    effect .frameStart s = testDrain (chooseFrame { s with claim.offerInHand := none }) := if_pos free

theorem effect_frameStart_busy (busy : ¬ freeToStart s = true) : effect .frameStart s = s := if_neg busy

theorem chooseFrame_join {resumed : Bool} (joining : s.control.state = .joining)
    (candidate : s.control.joinCandidate = some resumed) :
    chooseFrame s = startFrame .join (.join s.control.number resumed) s := by
  unfold chooseFrame
  rw [if_pos joining, candidate]

theorem chooseFrame_leaving (joined : s.control.state ≠ .joining) (present : s.control.leaveCandidate = true) :
    chooseFrame s = startFrame .leave (.leave s.control.number) s := by
  unfold chooseFrame
  rw [if_neg joined, if_pos present]

theorem chooseFrame_notice {n : HeldNotice} (joined : s.control.state ≠ .joining) (absent : s.control.leaveCandidate = false)
    (oldest : oldestNotice s = some n) : chooseFrame s = startFrame (.notice n.ref) (.notice (noticeFields s n)) s := by
  unfold chooseFrame
  rw [if_neg joined, absent, oldest]
  rfl

theorem chooseFrame_offers (joined : s.control.state ≠ .joining) (absent : s.control.leaveCandidate = false)
    (none : oldestNotice s = none) : chooseFrame s = chooseOffer (waitingOffers s) s := by
  unfold chooseFrame
  rw [if_neg joined, absent, none]
  rfl

theorem mem_candidateNotices {n : HeldNotice} : n ∈ candidateNotices s ↔
    n ∈ heldNotices s ∧ n.resolution = none ∧ n.originator ≠ s.control.number := by
  unfold candidateNotices
  rw [List.mem_filter, Bool.and_eq_true, Option.isNone_iff_eq_none, bne_iff_ne]

theorem oldestNotice_eq {n : HeldNotice} (held : n ∈ heldNotices s) (unresolved : n.resolution = none)
    (other : n.originator ≠ s.control.number)
    (oldest : ∀ m ∈ heldNotices s, m.resolution = none → m.originator ≠ s.control.number → m = n ∨ n.age < m.age) :
    oldestNotice s = some n :=
  leastBy_eq_some (mem_candidateNotices.2 ⟨held, unresolved, other⟩) fun m mem apart => by
    obtain ⟨held, unresolved, other⟩ := mem_candidateNotices.1 mem
    exact (oldest m held unresolved other).resolve_left apart

/-- With a notice held the drain is not complete. -/
theorem notComplete_of_notice {n : HeldNotice} (held : n ∈ heldNotices s) : drainComplete s = false := by
  by_contra complete
  rw [heldNotices_of_complete (by simpa using complete)] at held
  cases held

theorem testDrain_incomplete (incomplete : drainComplete s = false) : testDrain s = s :=
  if_neg fun ⟨_, _, complete⟩ => nomatch incomplete.symm.trans complete

theorem testDrain_present (present : s.control.leaveCandidate = true) : testDrain s = s :=
  if_neg fun ⟨_, absent, _⟩ => nomatch absent.symm.trans present

end

/-- Settles O42. -/
theorem frameStartByRank : Obligations.FrameStartByRank := by
  intro s run
  rw [exec_of_run run]
  refine ⟨fun busy => congrArg _ (effect_frameStart_busy fun free => ?_), fun sends sync own position => ?_⟩
  · obtain ⟨sends, sync, own, position⟩ := freeToStart_iff.1 free
    rcases busy with silent | lost | flying | inside
    · exact nomatch silent.symm.trans sends
    · exact nomatch lost.symm.trans sync
    · exact flying own
    · exact inside position
  · rw [effect_frameStart (freeToStart_iff.2 ⟨sends, sync, own, position⟩)]
    refine ⟨fun resumed joining candidate => congrArg _ ?_, fun joined present => congrArg _ ?_,
      fun n held joined absent unresolved other oldest => congrArg _ ?_⟩
    · have chosen := chooseFrame_join (s := { s with claim.offerInHand := none }) joining candidate
      rw [chosen]
      exact testDrain_elsewhere fun draining => nomatch joining.symm.trans draining
    · have chosen := chooseFrame_leaving (s := { s with claim.offerInHand := none }) joined present
      rw [chosen]
      exact testDrain_present present
    · have first : oldestNotice { s with claim.offerInHand := none } = some n := oldestNotice_eq held unresolved other oldest
      have chosen := chooseFrame_notice (s := { s with claim.offerInHand := none }) joined absent first
      rw [chosen]
      exact testDrain_incomplete (notComplete_of_notice (s := s) held)

/-! ### The frame in flight (R38) -/

section
variable {s : State}

theorem ownCandidate_eq {f : OwnFrame} (sends : s.control.state.sends = true) (own : s.bus.ownFrame = some f) :
    ownCandidate s = some f.candidate := by
  unfold ownCandidate
  rw [if_pos sends, own]
  rfl

/-- Below 32 the end of a frame mutes nobody (R42). -/
theorem muteIfDue_below (below : s.bus.errorCount ≤ 31) : muteIfDue s = s := by
  unfold muteIfDue
  refine if_neg ?_
  rw [Bool.and_eq_true, decide_eq_true_eq, Config.muteAt]
  omega

theorem muteIfDue_silent (silent : s.control.state.sends = false) : muteIfDue s = s := by
  unfold muteIfDue
  rw [silent]
  rfl

theorem muteIfDue_due (sends : s.control.state.sends = true) (due : 32 ≤ s.bus.errorCount) : muteIfDue s = enterMuted s :=
  if_pos (by rw [sends]; exact decide_eq_true due)

theorem sends_of_answering (state : s.control.state = .online ∨ s.control.state = .draining) :
    s.control.state.sends = true := sends_of_answers (answers_iff.2 state)

end

/-! ### The end of a LEAVE (R57) -/

section
variable {fate : LeaveFate} {s : State}

theorem leaveFrameEnded_none (none : ∀ f, s.bus.ownFrame = some f → f.candidate ≠ .leave) : leaveFrameEnded fate s = s := by
  unfold leaveFrameEnded
  split
  case h_1 own =>
    obtain ⟨f, flight, leave⟩ := ownCandidate_frame own
    exact absurd leave (none f flight)
  all_goals rfl

theorem leaveFrameEnded_own (own : ownCandidate s = some .leave) : leaveFrameEnded fate s =
    muteIfDue (leaveEnded fate (endOwnFrame (leaveErrors s.bus.errorCount fate) s)) := by
  unfold leaveFrameEnded
  rw [own]

end

/-- Settles O47. -/
theorem leaveEndGoesOffline : Obligations.LeaveEndGoesOffline := by
  intro fate s run
  rw [exec_of_run run]
  refine ⟨fun none => congrArg _ (leaveFrameEnded_none none), ?_⟩
  intro f draining flight leave errors ended below
  have own : ownCandidate s = some .leave := by rw [ownCandidate_eq (by rw [draining]; rfl) flight, leave]
  have ends : effect (.leaveFrameEnd fate) s = muteIfDue (leaveEnded fate (endOwnFrame (leaveErrors s.bus.errorCount fate) s)) :=
    leaveFrameEnded_own own
  rw [ends]
  refine ⟨fun failed => ?_, ?_⟩
  · rcases failed with rfl | rfl | rfl <;> exact congrArg _ (muteIfDue_below (s := endOwnFrame _ s) below)
  · rintro rfl
    exact congrArg _ (muteIfDue_silent (s := enterOffline _) rfl)

/-! ### The end of a notice (R153 to R158) -/

section
variable {fate : NoticeFate} {s : State}

theorem noticeFrameEnded_none (none : ∀ f ref, s.bus.ownFrame = some f → f.candidate ≠ .notice ref) :
    noticeFrameEnded fate s = s := by
  unfold noticeFrameEnded
  split
  case h_1 ref own =>
    obtain ⟨f, flight, notice⟩ := ownCandidate_frame own
    exact absurd notice (none f ref flight)
  all_goals rfl

theorem noticeFrameEnded_own {n : HeldNotice} (own : ownCandidate s = some (.notice n.ref))
    (found : findNotice n.ref s = some n) : noticeFrameEnded fate s =
      testDrain (muteIfDue (noticeEnded n fate (endOwnFrame (noticeErrors s.bus.errorCount fate) s))) := by
  have still : findNotice n.ref (endOwnFrame (noticeErrors s.bus.errorCount fate) s) = some n := found
  unfold noticeFrameEnded
  rw [own]
  simp only [still]

theorem drainComplete_writeNotice (n : HeldNotice) (s : State) : drainComplete (writeNotice n s) = drainComplete s := by
  unfold writeNotice
  split
  case h_1 i _ =>
    split
    case h_2 => rfl
    case h_1 e held =>
      refine Bool.eq_iff_iff.2 ⟨fun complete => ?_, fun complete => ?_⟩
      · have empty := (drainComplete_iff.1 complete).2.1 i
        exact nomatch ((vector_get_set s.work.slots i i _).trans (if_pos rfl)).symm.trans empty
      · exact nomatch held.symm.trans ((drainComplete_iff.1 complete).2.1 i)
  case h_2 =>
    unfold drainComplete
    simp only [setInbound_work, setInbound_offer, List.isEmpty_map]

/-- The drain test in the words of the statements. -/
theorem testDrain_drainTested {t : State} (control : t.control = s.control) :
    testDrain t = { t with control := drainTested s t } := by
  have same : drainTested t t = drainTested s t := by unfold drainTested; rw [control]
  rw [← same, ← testDrain_control]
  exact testDrain_eq t

theorem freeCopy_control (ref : CopyRef) (s : State) : (freeCopy ref s).control = s.control := by cases ref <;> rfl

theorem endCopy_room (n : HeldNotice) (how : CopyEnd) (room : s.reports.queue.length < 16) : endCopy n how s =
    { freeCopy n.ref s with reports := { queue := s.reports.queue ++ [copyReport n how]
                                         resolutionCounter := s.reports.resolutionCounter + 1 } } := by
  unfold endCopy
  rw [if_pos (reportRoom_iff.2 room)]
  cases n.ref <;> rfl

theorem endCopy_full (n : HeldNotice) (how : CopyEnd) (full : 16 ≤ s.reports.queue.length) : endCopy n how s =
    { writeNotice { n with resolution := some { how := how, number := s.reports.resolutionCounter } } s with
      reports.resolutionCounter := s.reports.resolutionCounter + 1 } := by
  unfold endCopy
  rw [if_neg fun room => absurd (reportRoom_iff.1 room) (not_lt.2 full)]
  unfold writeNotice
  cases n.ref with
  | slot i =>
    simp only [countResolution_work]
    cases s.work.slots.get i <;> rfl
  | inbound => rfl

/-- A copy that waits with its resolution is still held, and the test finds nothing to do. -/
theorem testDrain_endCopy_full {n : HeldNotice} (held : n ∈ heldNotices s) {m : HeldNotice} (how : CopyEnd)
    (full : 16 ≤ s.reports.queue.length) : testDrain (endCopy m how s) = endCopy m how s := by
  refine testDrain_incomplete ?_
  rw [endCopy_full m how full]
  exact (drainComplete_writeNotice _ s).trans (notComplete_of_notice held)

end

/-- Settles O45. -/
theorem noticeFateByReply : Obligations.NoticeFateByReply := by
  intro fate s run
  rw [exec_of_run run]
  refine ⟨fun none => congrArg _ (noticeFrameEnded_none none), ?_⟩
  intro f n state flight notice held sound errors ended freed waits tested below
  have own : ownCandidate s = some (.notice n.ref) := by rw [ownCandidate_eq (sends_of_answering state) flight, notice]
  obtain ⟨-, -, -, -, nodup, -⟩ := sound
  have found := findNotice_of_mem nodup held
  have same : noticeErrors s.bus.errorCount fate = errors := by cases fate <;> rfl
  have bus : (noticeEnded n fate ended).bus = ended.bus := (noticeEnded_moves n fate ended).onlyTickets.bus
  have after : (noticeEnded n fate ended).bus.errorCount ≤ 31 := by rw [bus]; exact below
  have ends : effect (.noticeFrameFate fate) s = testDrain (noticeEnded n fate ended) := by
    refine (noticeFrameEnded_own own found).trans ?_
    rw [same]
    exact congrArg testDrain (muteIfDue_below after)
  have heldEnded : n ∈ heldNotices ended := held
  have incomplete : drainComplete ended = false := notComplete_of_notice heldEnded
  have ended_room (m : HeldNotice) (ref : m.ref = n.ref) (how : CopyEnd) (report : copyReport m how = copyReport n how)
      (room : s.reports.queue.length < 16) : testDrain (endCopy m how ended) = tested (freed how) := by
    have placed : endCopy m how ended = freed how := by
      rw [endCopy_room (s := ended) m how room, ref, report]
      cases how <;> rfl
    rw [placed]
    exact testDrain_drainTested (freeCopy_control n.ref ended)
  have ended_full (how : CopyEnd) (full : 16 ≤ s.reports.queue.length) :
      testDrain (endCopy { n with attempts := n.attempts + 1 } how ended) = waits how := by
    rw [testDrain_endCopy_full heldEnded how full, endCopy_full (s := ended) _ how full]
  rw [ends]
  refine ⟨fun failed => ?_, ?_, fun stale => ?_, ?_⟩
  · rcases failed with rfl | rfl | rfl <;> exact congrArg _ (testDrain_incomplete incomplete)
  · rintro rfl
    exact congrArg _ (testDrain_drainTested (freeCopy_control n.ref ended))
  · rintro rfl
    have attempt : noticeEnded n (.clean false stale) ended = notDelivered n ended := rfl
    rw [attempt]
    unfold notDelivered
    refine ⟨fun more => congrArg _ ?_, fun last room => congrArg _ ?_, fun last full => congrArg _ ?_⟩
    · simp only [Config.noticeAttemptLimit, more, if_true]
      exact testDrain_incomplete ((drainComplete_writeNotice _ ended).trans incomplete)
    · simp only [Config.noticeAttemptLimit, not_lt.2 last, if_false]
      exact ended_room { n with attempts := n.attempts + 1 } rfl .undelivered rfl room
    · simp only [Config.noticeAttemptLimit, not_lt.2 last, if_false]
      exact ended_full .undelivered full
  · rintro rfl
    exact ⟨fun room => congrArg _ (ended_room { n with attempts := n.attempts + 1 } rfl .stale rfl room),
      fun full => congrArg _ (ended_full .stale full)⟩

/-! ### The end of an OFFER (R89 to R91) -/

section
variable {fate : OfferFate} {s : State}

theorem confirms_iff {bid : BitVec 6} {claimant : StationNumber} :
    confirms bid claimant = true ↔ bid.toNat ≤ 62 ∧ claimant.toNat ≤ 14 := by
  have top : bid ≠ 63 ↔ bid.toNat ≤ 62 := by
    rw [ne_eq, ← BitVec.toNat_inj]
    have := bid.isLt
    change ¬ bid.toNat = 63 ↔ _
    omega
  have station : claimant ≠ 15 ↔ claimant.toNat ≤ 14 := by
    rw [ne_eq, ← BitVec.toNat_inj]
    have := claimant.isLt
    change ¬ claimant.toNat = 15 ↔ _
    omega
  rw [confirms, Bool.and_eq_true, bne_iff_ne, bne_iff_ne, top, station]

theorem offerFrameEnded_none (none : ∀ f tag, s.bus.ownFrame = some f → f.candidate ≠ .offer tag) :
    offerFrameEnded fate s = s := by
  unfold offerFrameEnded
  split
  case h_1 tag own =>
    obtain ⟨f, flight, offer⟩ := ownCandidate_frame own
    exact absurd offer (none f tag flight)
  all_goals rfl

/-- The station once its OFFER is over, before the fate reaches the record: the frame is gone, a claimant it confirmed is
learned, and a broken or void OFFER has left no claim in hand (R25, R32, R41). -/
def offerOver (fate : OfferFate) (s : State) : State :=
  learnClaimant fate (dropHand fate (endOwnFrame (offerErrors s.bus.errorCount fate) s))

theorem offerOver_eq (fate : OfferFate) (s : State) : offerOver fate s = { s with
    bus := { s.bus with
      ownFrame := none, position := none, recessiveRun := 0, errorCount := offerErrors s.bus.errorCount fate }
    control.roster := match claimedBy fate with
      | some c => setAdd s.control.roster c
      | none => s.control.roster
    claim.offerInHand := match fate with
      | .broken => none
      | .void => none
      | .lost => s.claim.offerInHand
      | .clean _ _ => s.claim.offerInHand } := by
  unfold offerOver learnClaimant
  cases fate with
  | clean bid claimant => cases claimedBy (.clean bid claimant) <;> rfl
  | lost => rfl
  | broken => rfl
  | void => rfl

theorem offerFrameEnded_own {tag : Tag} (own : ownCandidate s = some (.offer tag)) :
    offerFrameEnded fate s = testDrain (muteIfDue (offerEnded tag fate (offerOver fate s))) := by
  unfold offerFrameEnded
  rw [own]
  rfl

theorem offerEnded_held {r : OutRecord} {cancel : Bool} (nodup : (s.offer.records.map (·.tag)).Nodup)
    (mem : r ∈ s.offer.records) (offering : r.state = .offering cancel) :
    offerEnded r.tag fate s = offerDecided r cancel fate s := by
  unfold offerEnded
  rw [findRecord_of_mem nodup mem]
  simp only [offering]

theorem offerDecided_cancelled (r : OutRecord) : offerDecided r true fate s = resolveRecord r .cancelled s := if_pos rfl

theorem offerDecided_withdrawn (r : OutRecord) (draining : s.control.state = .draining)
    (ends : s.control.drainPassed = true ∨ claimedBy fate = none) :
    offerDecided r false fate s = resolveRecord r .withdrawn s := by
  unfold offerDecided
  rw [if_neg Bool.false_ne_true, if_pos draining]
  rcases ends with passed | unclaimed
  · rw [if_pos passed]
  · split
    · rfl
    · rw [unclaimed]

theorem claimed_clean {c : StationNumber} (claimed : claimedBy fate = some c) :
    ∃ bid, fate = .clean bid c ∧ confirms bid c = true := by
  unfold claimedBy at claimed
  split at claimed
  case h_1 bid claimant =>
    split at claimed <;> cases claimed
    rename_i confirmed
    exact ⟨bid, rfl, confirmed⟩
  all_goals cases claimed

theorem offerDecided_claimed (r : OutRecord) {c : StationNumber} (claimed : claimedBy fate = some c)
    (active : s.control.state ≠ .draining ∨ s.control.drainPassed = false) :
    offerDecided r false fate s = claimConfirmed r c s := by
  obtain ⟨bid, rfl, confirmed⟩ := claimed_clean claimed
  unfold offerDecided
  rw [if_neg Bool.false_ne_true]
  split
  case isTrue draining =>
    rw [if_neg (by rw [active.resolve_left (not_not.2 draining)]; exact Bool.false_ne_true), claimed]
  case isFalse => exact if_pos confirmed

theorem offerDecided_unclaimed (r : OutRecord) {bid : BitVec 6} {claimant : StationNumber} (online : s.control.state = .online)
    (unclaimed : confirms bid claimant = false) : offerDecided r false (.clean bid claimant) s = attemptCounted r s := by
  unfold offerDecided
  rw [if_neg Bool.false_ne_true, if_neg (by rw [online]; nofun)]
  simp only [unclaimed]
  rfl

theorem offerDecided_failed (r : OutRecord) (online : s.control.state = .online)
    (failed : fate = .lost ∨ fate = .broken ∨ fate = .void) :
    offerDecided r false fate s = putRecord { r with state := .waiting } s := by
  unfold offerDecided
  rw [if_neg Bool.false_ne_true, if_neg (by rw [online]; nofun)]
  rcases failed with rfl | rfl | rfl <;> rfl

theorem attemptCounted_below (r : OutRecord) (below : r.attempts + 1 < (classOf s r.cls).attemptLimit) :
    attemptCounted r s = putRecord { r with
      attempts := r.attempts + 1
      state := if (classOf s r.cls).retry = 0 then .waiting else .backoff (classOf s r.cls).retry } s := by
  unfold attemptCounted timerOf
  simp only [below, if_true]
  by_cases none : (classOf s r.cls).retry = 0
  · rw [if_pos none, if_pos none]
  · rw [if_neg none, if_neg none]

theorem attemptCounted_limit (r : OutRecord) (limit : (classOf s r.cls).attemptLimit ≤ r.attempts + 1) :
    attemptCounted r s = resolveRecord { r with attempts := r.attempts + 1 } (.refused (r.attempts + 1)) s :=
  if_neg (not_lt.2 limit)

end

theorem ResolvedIn.from_eq {r : OutRecord} {res : Resolution} {s u t : State} (h : ResolvedIn r res u t)
    (records : u.offer.records = s.offer.records) (reports : u.reports = s.reports) (config : u.control.config = s.control.config) :
    ResolvedIn r res s t := by
  unfold ResolvedIn classOf at h ⊢
  rwa [records, reports, config] at h

/-- Settles O44: the rows of `offerDecided`, taken on the station as the end of the frame leaves it. -/
theorem offerEndByFate : Obligations.OfferEndByFate := by
  intro fate s run
  rw [exec_of_run run]
  refine ⟨fun none => congrArg _ (offerFrameEnded_none none), ?_⟩
  intro f r cancel state flight offer mem offering lists errors claimed below
  obtain ⟨-, nodup, -⟩ := lists
  have own : ownCandidate s = some (.offer r.tag) := by rw [ownCandidate_eq (sends_of_answering state) flight, offer]
  have same : offerErrors s.bus.errorCount fate = errors := by cases fate <;> rfl
  have claims : claimedBy fate = claimed := by
    cases fate with
    | clean bid claimant => exact if_congr confirms_iff rfl rfl
    | _ => rfl
  have finished := offerOver_eq fate s
  set u := offerOver fate s
  have uOffer : u.offer = s.offer := by rw [finished]
  have uBus : u.bus = { s.bus with
      ownFrame := none, position := none, recessiveRun := 0, errorCount := offerErrors s.bus.errorCount fate } := by
    rw [finished]
  have uReports : u.reports = s.reports := by rw [finished]
  have uConfig : u.control.config = s.control.config := by rw [finished]
  have uState : u.control.state = s.control.state := by rw [finished]
  have uPassed : u.control.drainPassed = s.control.drainPassed := by rw [finished]
  have only := onlyTickets_offerDecided r cancel fate u
  have decided : offerEnded r.tag fate u = offerDecided r cancel fate u :=
    offerEnded_held (by rw [uOffer]; exact nodup) (by rw [uOffer]; exact mem) offering
  have quiet : (offerDecided r cancel fate u).bus.errorCount ≤ 31 := by
    rw [only.bus, finished]
    exact same.trans_le below
  have ends : effect (.offerFrameEnd fate) s = testDrain (offerDecided r cancel fate u) := by
    refine (offerFrameEnded_own own).trans ?_
    rw [decided, muteIfDue_below quiet]
  obtain ⟨bus, -, -, offerKept, reports, -, port⟩ := testDrain_beside (offerDecided r cancel fate u)
  have records : (testDrain (offerDecided r cancel fate u)).offer.records = (offerDecided r cancel fate u).offer.records :=
    congrArg OfferUnit.records offerKept
  have resolved {x : OutRecord} {res : Resolution} (is : offerDecided r cancel fate u = resolveRecord x res u) :
      ResolvedIn x res s (testDrain (offerDecided r cancel fate u)) := by
    refine ResolvedIn.from_eq (u := u) ?_ (by rw [uOffer]) uReports uConfig
    rw [is] at reports records ⊢
    exact (resolveRecord_resolved x res u).of_eq reports records
  have put {x : OutRecord} (tag : x.tag = r.tag) (is : offerDecided r cancel fate u = putRecord x u) :
      (testDrain (offerDecided r cancel fate u)).offer.records =
        s.offer.records.map fun y => if y.tag = r.tag then x else y := by
    rw [records, is, putRecord_eq, uOffer, tag]
  refine ⟨testDrain (offerDecided r cancel fate u), u, congrArg _ ends, ?_, ?_, ?_, ticketsThenDrain_testDrain only, ?_, ?_, ?_, ?_, ?_⟩
  · rw [port, only.port, finished]
  · rw [bus, only.bus, finished, same]
  · rw [bus, only.bus, ← claims]
    exact finished.trans (by rw [uBus] <;> rfl)
  · rintro rfl
    exact resolved (offerDecided_cancelled r)
  · rintro rfl draining ended
    exact resolved (offerDecided_withdrawn r (uState.trans draining) (by rwa [uPassed, claims]))
  · rintro c rfl is active
    have claim := offerDecided_claimed (s := u) r (claims.trans is)
      (active.imp (fun online => by rw [uState, online]; nofun) uPassed.trans)
    refine put rfl (claim.trans ?_)
    unfold claimConfirmed timerOf classOf
    rw [uConfig]
  · rintro bid claimant rfl online rfl unclaimed
    have none : confirms bid claimant = false := by
      by_contra confirmed
      have is : claimedBy (.clean bid claimant) = some claimant := if_pos (by simpa using confirmed)
      rw [claims, unclaimed] at is
      cases is
    have counted := offerDecided_unclaimed (s := u) r (uState.trans online) none
    refine ⟨fun more => ?_, fun limit => ?_⟩
    · have uMore : r.attempts + 1 < (classOf u r.cls).attemptLimit := by unfold classOf; rw [uConfig]; exact more
      refine put rfl (counted.trans ((attemptCounted_below r uMore).trans ?_))
      unfold classOf
      rw [uConfig]
    · have uLimit : (classOf u r.cls).attemptLimit ≤ r.attempts + 1 := by unfold classOf; rw [uConfig]; exact limit
      exact resolved (counted.trans (attemptCounted_limit r uLimit))
  · rintro rfl online failed
    exact put rfl (offerDecided_failed r (uState.trans online) failed)

end Sys2Proof.Machine
end

section
/-! PROOFS. A broken or void own frame at a count of 24 or more: the fate first, and then the entry to MUTED (R41, R42, R59). -/

namespace Sys2Proof.Machine

/-! ### A full report queue (R165) -/

section
variable {s : State}

theorem fixResolution_queue_full (r : OutRecord) (res : Resolution) (full : 16 ≤ s.reports.queue.length) :
    (fixResolution r res s).reports.queue = s.reports.queue := by
  have noRoom : ¬ reportRoom s = true := by rw [reportRoom_iff]; omega
  rw [fixResolution_eq]
  split
  case isTrue => simp
  case isFalse => simp

theorem createRecord_queue_full (f : TicketFields) (full : 16 ≤ s.reports.queue.length) :
    (createRecord f s).reports.queue = s.reports.queue := by
  unfold createRecord
  simp only
  split
  · rfl
  · exact fixResolution_queue_full _ _ (s := placeRecord _ s) full

/-- A full report queue takes no report. -/
theorem TicketStep.queue_full {t : State} (step : TicketStep s t) (full : 16 ≤ s.reports.queue.length) :
    t.reports.queue = s.reports.queue := by
  cases step with
  | put => rfl
  | fix res => exact fixResolution_queue_full _ res full
  | make l => exact createRecord_queue_full (s := setEntry l _ s) _ full
  | create f => exact createRecord_queue_full f full
  | leave res mem room => omega
  | reportCopy n how room => omega
  | count => rfl
  | freeCopy ref => rw [freeCopy_eq]
  | writeNotice n => rw [writeNotice_eq]

theorem TicketMoves.queue_full {t : State} (moves : TicketMoves s t) (full : 16 ≤ s.reports.queue.length) :
    t.reports.queue = s.reports.queue :=
  moves.keeps (P := fun t => t.reports.queue = s.reports.queue)
    (fun step same => (step.queue_full (same ▸ full)).trans same) rfl

end

/-! ### Entry to MUTED (R59) -/

/-- Station control at the entry to MUTED, before the sources are looked at (R42, R59, R189). -/
def mutedControl (c : StationControl) : StationControl :=
  { c with
    state := .muted
    roster := setAdd c.roster c.number
    stateChanged := true
    mutedResumed := if c.state = .joining then c.joinCandidate.getD false else true
    joinCandidate := none
    drainTimer := none
    leaveCandidate := false
    drainPassed := false }

theorem enterMuted_eq (s : State) : enterMuted s = serveSources { s with control := mutedControl s.control } := rfl

theorem onlyTickets_enterMuted (s : State) : OnlyTickets { s with control := mutedControl s.control } (enterMuted s) :=
  onlyTickets_serveSources _

theorem enterMuted_state (s : State) : (enterMuted s).control.state = .muted := congrArg Standing.state (standing_enterMuted s)

theorem enterMuted_keeps (s : State) : s.offer.records <+: (enterMuted s).offer.records :=
  serveSources_keeps { s with control := mutedControl s.control }

/-- What was resolved before the entry to MUTED, seen after it. -/
theorem ResolvedIn.muted {r : OutRecord} {res : Resolution} {s t : State} (h : ResolvedIn r res s t) :
    ResolvedAtMuting r res s (enterMuted t) := by
  have only := onlyTickets_enterMuted t
  have records := enterMuted_keeps t
  obtain ⟨numbered, cases⟩ := h
  refine ⟨numbered.trans_le only.numbers, ?_⟩
  split at cases
  case isTrue report =>
    rw [if_pos report]
    split at cases
    case isTrue room =>
      rw [if_pos room]
      exact ⟨cases.1.trans only.reports, cases.2.trans records⟩
    case isFalse full =>
      rw [if_neg full]
      have kept := (serveSources_moves { t with control := mutedControl t.control }).queue_full
        (cases.1.symm ▸ not_lt.1 full)
      exact ⟨kept.trans cases.1, cases.2 ▸ records⟩
  case isFalse silent =>
    rw [if_neg silent]
    exact ⟨cases.1.trans only.reports, cases.2.trans records⟩

/-! ### What the entry keeps, whatever the fate has done (R42) -/

section
variable {s : State}

theorem drive_silent (silent : s.control.state.sends = false) : drive s = true := by
  unfold drive
  rw [silent]
  simp

/-- The station once a broken or void frame of its own is over: the count has risen by 8 (R41). -/
def badFrameOver (s : State) : State := endOwnFrame (errorsAfterBad s.bus.errorCount) s

/-- What has become of the tickets alone before the entry: the station is MUTED with all its own kept (R59). -/
theorem muted_keeps {t : State} {hand : Option OfferInHand}
    (only : OnlyTickets { badFrameOver s with claim.offerInHand := hand } t) :
    (enterMuted t).bus = { s.bus with
        ownFrame := none, position := none, recessiveRun := 0, errorCount := s.bus.errorCount + 8 } ∧
      (enterMuted t).control = mutedControl s.control ∧ (enterMuted t).work = s.work ∧ (enterMuted t).port = s.port ∧
      drive (enterMuted t) = true ∧ (enterMuted t).claim.affinity = s.claim.affinity ∧
      (enterMuted t).claim.claimCounter = s.claim.claimCounter ∧ s.reports.queue <+: (enterMuted t).reports.queue ∧
      ((∀ l, waitingSource (enterMuted t) l = false) ∨ 32 ≤ (enterMuted t).offer.records.length) := by
  have entered := onlyTickets_enterMuted t
  have control : (enterMuted t).control = mutedControl s.control := entered.control.trans (congrArg mutedControl only.control)
  have claim : (enterMuted t).claim = { s.claim with offerInHand := hand } := Eq.trans entered.claim only.claim
  exact ⟨entered.bus.trans only.bus, control, entered.work.trans only.work, entered.port.trans only.port,
    drive_silent (by rw [control]; rfl), by rw [claim], by rw [claim], only.reports.trans entered.reports,
    serveSources_served _⟩

theorem onlyTickets_offerEnded (tag : Tag) (fate : OfferFate) (s : State) : OnlyTickets s (offerEnded tag fate s) := by
  unfold offerEnded
  split
  · exact .refl s
  · split
    · exact onlyTickets_offerDecided _ _ fate s
    all_goals exact .refl s

/-- At 24 or more, a frame that goes wrong mutes the station (R42). -/
theorem muteIfDue_bad {t : State} {hand : Option OfferInHand} (sends : s.control.state.sends = true)
    (high : 24 ≤ s.bus.errorCount) (only : OnlyTickets { badFrameOver s with claim.offerInHand := hand } t) :
    muteIfDue t = enterMuted t := by
  refine muteIfDue_due (by rw [only.control]; exact sends) ?_
  rw [only.bus]
  change 32 ≤ s.bus.errorCount + 8
  omega

theorem testDrain_muted (t : State) : testDrain (enterMuted t) = enterMuted t :=
  testDrain_elsewhere (by rw [enterMuted_state]; nofun)

theorem joinFrameEnded_bad {fate : JoinFate} (own : ownCandidate s = some .join) (high : 24 ≤ s.bus.errorCount)
    (bad : fate = .broken ∨ fate = .void) : joinFrameEnded fate s = enterMuted (badFrameOver s) := by
  have mutes := muteIfDue_bad (ownCandidate_sends own) high (.refl (badFrameOver s))
  unfold joinFrameEnded
  rw [own]
  rcases bad with rfl | rfl <;> exact mutes

theorem leaveFrameEnded_bad {fate : LeaveFate} (own : ownCandidate s = some .leave) (high : 24 ≤ s.bus.errorCount)
    (bad : fate = .broken ∨ fate = .void) : leaveFrameEnded fate s = enterMuted (badFrameOver s) := by
  have mutes := muteIfDue_bad (ownCandidate_sends own) high (.refl (badFrameOver s))
  rw [leaveFrameEnded_own own]
  rcases bad with rfl | rfl <;> exact mutes

theorem noticeFrameEnded_bad {fate : NoticeFate} {ref : CopyRef} (own : ownCandidate s = some (.notice ref))
    (high : 24 ≤ s.bus.errorCount) (bad : fate = .broken ∨ fate = .void) :
    noticeFrameEnded fate s = enterMuted (badFrameOver s) := by
  have mutes := muteIfDue_bad (ownCandidate_sends own) high (.refl (badFrameOver s))
  have errors : noticeErrors s.bus.errorCount fate = errorsAfterBad s.bus.errorCount := by rcases bad with rfl | rfl <;> rfl
  have unchanged (n : HeldNotice) : noticeEnded n fate (badFrameOver s) = badFrameOver s := by rcases bad with rfl | rfl <;> rfl
  unfold noticeFrameEnded
  rw [own]
  simp only [errors]
  rw [← badFrameOver]
  split
  · rw [unchanged, mutes, testDrain_muted]
  · rw [mutes, testDrain_muted]

theorem offerOver_bad {fate : OfferFate} (bad : fate = .broken ∨ fate = .void) :
    offerOver fate s = { badFrameOver s with claim.offerInHand := none } := by
  rcases bad with rfl | rfl <;> rfl

theorem offerFrameEnded_bad {fate : OfferFate} {tag : Tag} (own : ownCandidate s = some (.offer tag))
    (high : 24 ≤ s.bus.errorCount) (bad : fate = .broken ∨ fate = .void) : offerFrameEnded fate s =
      enterMuted (offerEnded tag fate { badFrameOver s with claim.offerInHand := none }) := by
  have only := onlyTickets_offerEnded tag fate { badFrameOver s with claim.offerInHand := none }
  rw [offerFrameEnded_own own, offerOver_bad bad, muteIfDue_bad (ownCandidate_sends own) high only, testDrain_muted]

theorem claimedBy_bad {fate : OfferFate} (bad : fate = .broken ∨ fate = .void) : claimedBy fate = none := by
  rcases bad with rfl | rfl <;> rfl

end

/-- The two shapes of the end: no ticket is touched before the entry, or the record of the OFFER gets its fate first. -/
theorem badEnd_cases {c : Instr} {f : OwnFrame} {s : State} (candidate : ownCandidate s = some f.candidate)
    (high : 24 ≤ s.bus.errorCount)
    (own : (f.candidate = .join ∧ s.control.state = .joining ∧ (c = .joinFrameEnd .broken ∨ c = .joinFrameEnd .void)) ∨
      (f.candidate = .leave ∧ (c = .leaveFrameEnd .broken ∨ c = .leaveFrameEnd .void)) ∨
      (∃ ref, f.candidate = .notice ref ∧ (c = .noticeFrameFate .broken ∨ c = .noticeFrameFate .void)) ∨
      (∃ tag, f.candidate = .offer tag ∧ (c = .offerFrameEnd .broken ∨ c = .offerFrameEnd .void))) :
    ((∀ tag, f.candidate ≠ .offer tag) ∧ effect c s = enterMuted (badFrameOver s)) ∨
      ∃ tag fate, f.candidate = .offer tag ∧ (fate = .broken ∨ fate = .void) ∧
        effect c s = enterMuted (offerEnded tag fate { badFrameOver s with claim.offerInHand := none }) := by
  rcases own with ⟨join, -, commands⟩ | ⟨leave, commands⟩ | ⟨ref, notice, commands⟩ | ⟨tag, offer, commands⟩
  · rw [join] at candidate
    refine .inl ⟨by rw [join]; nofun, ?_⟩
    rcases commands with rfl | rfl
    · exact joinFrameEnded_bad candidate high (.inl rfl)
    · exact joinFrameEnded_bad candidate high (.inr rfl)
  · rw [leave] at candidate
    refine .inl ⟨by rw [leave]; nofun, ?_⟩
    rcases commands with rfl | rfl
    · exact leaveFrameEnded_bad candidate high (.inl rfl)
    · exact leaveFrameEnded_bad candidate high (.inr rfl)
  · rw [notice] at candidate
    refine .inl ⟨by rw [notice]; nofun, ?_⟩
    rcases commands with rfl | rfl
    · exact noticeFrameEnded_bad candidate high (.inl rfl)
    · exact noticeFrameEnded_bad candidate high (.inr rfl)
  · rw [offer] at candidate
    refine .inr ⟨tag, ?_⟩
    rcases commands with rfl | rfl
    · exact ⟨.broken, offer, .inl rfl, offerFrameEnded_bad candidate high (.inl rfl)⟩
    · exact ⟨.void, offer, .inr rfl, offerFrameEnded_bad candidate high (.inr rfl)⟩

/-- Settles O48: the fate has been handed first, and the entry to MUTED keeps what it has left. -/
theorem countOf32Mutes : Obligations.CountOf32Mutes := by
  intro c f s run sends flight high own
  rw [exec_of_run run]
  rcases badEnd_cases (ownCandidate_eq sends flight) high own with ⟨apart, ends⟩ | ⟨tag, fate, offer, bad, ends⟩
  · obtain ⟨bus, control, work, port, silent, affinity, counter, queue, served⟩ := muted_keeps (.refl (badFrameOver s))
    exact ⟨_, congrArg _ ends, bus, control, work, port, silent, affinity, counter, queue,
      fun _ => enterMuted_keeps (badFrameOver s), fun r cancel offer => absurd offer (apart r.tag), served⟩
  · set u : State := { badFrameOver s with claim.offerInHand := none }
    obtain ⟨bus, control, work, port, silent, affinity, counter, queue, served⟩ := muted_keeps (onlyTickets_offerEnded tag fate u)
    refine ⟨_, congrArg _ ends, bus, control, work, port, silent, affinity, counter, queue, fun apart => absurd offer (apart tag),
      fun r cancel own lists mem offering state => ?_, served⟩
    obtain rfl : tag = r.tag := by rw [offer] at own; cases own; rfl
    have decided : offerEnded r.tag fate u = offerDecided r cancel fate u := offerEnded_held (s := u) lists.2.1 mem offering
    rw [decided]
    refine ⟨?_, ?_, ?_⟩
    · rintro rfl
      rw [offerDecided_cancelled]
      have resolved : ResolvedIn r .cancelled s _ := resolveRecord_resolved r .cancelled u
      exact resolved.muted
    · rintro rfl draining
      rw [offerDecided_withdrawn (s := u) r draining (.inr (claimedBy_bad bad))]
      have resolved : ResolvedIn r .withdrawn s _ := resolveRecord_resolved r .withdrawn u
      exact resolved.muted
    · rintro rfl online
      rw [offerDecided_failed (s := u) r online (.inr bad), putRecord_eq]
      have kept := enterMuted_keeps (putRecord { r with state := .waiting } u)
      rw [putRecord_eq] at kept
      exact kept

end Sys2Proof.Machine
end

section
/-! PROOFS. What a transmitter sends, a receiver reads (R17, R21, R22, R24, section 12.1): the fields of a string of bits, one
after another, and then the frames. -/

namespace Sys2Proof.Machine

/-! ### Numbers on the wire (R17) -/

section
variable {w : Nat}

theorem numBits_length (x : BitVec w) : (numBits x).length = w := by
  rw [numBits, List.length_map, List.length_range]

theorem toNat_msb_first (x : BitVec w) {n : Nat} (inside : n < w) :
    x.toNat >>> (w - (n + 1)) = 2 * (x.toNat >>> (w - n)) + (x.getMsbD n).toNat := by
  have shift : w - n = (w - (n + 1)) + 1 := by omega
  rw [BitVec.getMsbD, decide_eq_true inside, Bool.true_and, BitVec.getLsbD, Nat.testBit_eq_decide_div_mod_eq, shift,
    Nat.shiftRight_succ, Nat.shiftRight_eq_div_pow, show w - 1 - n = w - (n + 1) by omega]
  have parity := Nat.mod_two_eq_zero_or_one (x.toNat / 2 ^ (w - (n + 1)))
  rcases parity with even | odd
  · rw [even]
    change _ = _ + 0
    omega
  · rw [odd]
    change _ = _ + 1
    omega

/-- The bits of a number, most significant first, read as the number. -/
theorem bitsNum_numBits (x : BitVec w) : bitsNum (numBits x) = x.toNat := by
  have prefixRead (n : Nat) (inside : n ≤ w) : bitsNum ((List.range n).map x.getMsbD) = x.toNat >>> (w - n) := by
    induction n with
    | zero =>
      rw [Nat.sub_zero, Nat.shiftRight_eq_div_pow, Nat.div_eq_of_lt x.isLt]
      rfl
    | succ n ih =>
      rw [List.range_succ, List.map_append, List.map_singleton, bitsNum_concat, ih (by omega), toNat_msb_first x inside]
  have whole := prefixRead w le_rfl
  rwa [Nat.sub_self, Nat.shiftRight_zero] at whole

end

/-! ### The fields of a string of bits, one after another (section 12.1) -/

section
variable {w first last n : Nat} (x : BitVec w) (b : Bool) (front rest : List Bool)

theorem bitsAt_append_right (past : front.length < first) :
    bitsAt (front ++ rest) first last = bitsAt rest (first - front.length) (last - front.length) := by
  unfold bitsAt
  have size : last - front.length + 1 - (first - front.length) = last + 1 - first := by omega
  rw [List.drop_append, List.drop_eq_nil_of_le (by omega), List.nil_append, size, Nat.sub_right_comm]

theorem bitsAt_append_left : bitsAt (front ++ rest) 1 front.length = front := by
  unfold bitsAt
  simp

theorem fieldAt_numBits_right (past : w < first) :
    fieldAt (numBits x ++ rest) first last = fieldAt rest (first - w) (last - w) := by
  have skip := bitsAt_append_right (last := last) (numBits x) rest (by rwa [numBits_length])
  rw [fieldAt, skip, numBits_length, fieldAt]

theorem fieldAt_numBits_left : fieldAt (numBits x ++ rest) 1 w = x.toNat := by
  have here := bitsAt_append_left (numBits x) rest
  rw [numBits_length] at here
  rw [fieldAt, here, bitsNum_numBits]

theorem fieldAt_cons (past : 1 < first) : fieldAt (b :: rest) first last = fieldAt rest (first - 1) (last - 1) :=
  congrArg bitsNum (bitsAt_append_right [b] rest past)

theorem bitAt_numBits_right (past : w < n) : bitAt (numBits x ++ rest) n = bitAt rest (n - w) := by
  unfold bitAt
  rw [List.getElem?_append_right (by rw [numBits_length]; omega), numBits_length]
  congr 2
  omega

theorem bitAt_cons (past : 1 < n) : bitAt (b :: rest) n = bitAt rest (n - 1) := by
  unfold bitAt
  rw [List.getElem?_cons, if_neg (by omega)]

theorem bitAt_head : bitAt (b :: rest) 1 = b := rfl

end

/-! ### The header (R22) -/

section
variable {first last n : Nat} (kind : FrameKind) (level : Level) (sender : StationNumber) (rest : List Bool)

/-- A frame from its opening bit, with its header and what follows it. -/
def opened : List Bool := false :: (headerBits kind level sender ++ rest)

theorem opened_eq :
    opened kind level sender rest = false :: (numBits kind.code ++ (numBits level ++ (numBits sender ++ rest))) := by
  simp only [opened, headerBits, List.append_assoc]

theorem opened_length : (opened kind level sender rest).length = rest.length + 11 := by
  rw [opened_eq, List.length_cons]
  simp only [List.length_append, numBits_length]
  omega

theorem rxKindCode_opened : rxKindCode (opened kind level sender rest) = kind.code.toNat := by
  rw [opened_eq, rxKindCode, fieldAt_cons _ _ (by decide)]
  exact fieldAt_numBits_left ..

theorem frameKind_code : frameKind kind.code.toNat = some kind := by cases kind <;> rfl

theorem frameKind_opened : frameKind (rxKindCode (opened kind level sender rest)) = some kind := by
  rw [rxKindCode_opened, frameKind_code]

theorem rxLevel_opened : fieldAt (opened kind level sender rest) 5 7 = level.toNat := by
  rw [opened_eq, fieldAt_cons _ _ (by decide), fieldAt_numBits_right _ _ (by decide)]
  exact fieldAt_numBits_left ..

theorem rxSender_opened : rxSender (opened kind level sender rest) = sender := by
  have read : fieldAt (opened kind level sender rest) 8 11 = sender.toNat := by
    rw [opened_eq, fieldAt_cons _ _ (by decide), fieldAt_numBits_right _ _ (by decide), fieldAt_numBits_right _ _ (by decide)]
    exact fieldAt_numBits_left ..
  rw [rxSender, read, BitVec.ofNat_toNat, BitVec.setWidth_eq]

theorem fieldAt_opened (past : 11 < first) :
    fieldAt (opened kind level sender rest) first last = fieldAt rest (first - 11) (last - 11) := by
  rw [opened_eq, fieldAt_cons _ _ (by omega), fieldAt_numBits_right _ _ (by omega), fieldAt_numBits_right _ _ (by omega),
    fieldAt_numBits_right _ _ (by omega)]
  rfl

theorem bitAt_opened (past : 11 < n) : bitAt (opened kind level sender rest) n = bitAt rest (n - 11) := by
  rw [opened_eq, bitAt_cons _ _ (by omega), bitAt_numBits_right _ _ (by omega), bitAt_numBits_right _ _ (by omega),
    bitAt_numBits_right _ _ (by omega)]
  rfl

end

/-! ### The frames (section 12.1) -/

section
variable (f : Frame) (tail : List Bool)

theorem body_length : f.body.length + 2 = f.layout.checkFirst := by
  rcases f with o | n | ⟨sender, resumed⟩ | sender
  case offer =>
    obtain ⟨sender, level, tag, generation, cls, dest, addr⟩ := o
    cases addr <;> simp [Frame.body, headerBits, setBits, numBits_length, Frame.layout, Frame.kind, Frame.hasAddr, layoutOf]
  case notice =>
    obtain ⟨word, sender, target, tag, generation, cls, outcome⟩ := n
    cases word <;> simp [Frame.body, headerBits, numBits_length, Frame.layout, Frame.kind, wordKind, layoutOf]
  case join => simp [Frame.body, headerBits, numBits_length, Frame.layout, Frame.kind, layoutOf]
  case leave => simp [Frame.body, headerBits, numBits_length, Frame.layout, Frame.kind, layoutOf]

theorem checkLast_layoutOf (kind : FrameKind) (hasAddr : Bool) :
    (layoutOf kind hasAddr).checkLast = (layoutOf kind hasAddr).checkFirst + 15 := by
  cases kind <;> cases hasAddr <;> rfl

theorem sentBits_length : f.sentBits.length = f.layout.checkLast := by
  have before := body_length f
  have check := checkLast_layoutOf f.kind f.hasAddr
  rw [Frame.sentBits, List.length_cons, List.length_append, numBits_length]
  unfold Frame.layout at before ⊢
  omega

theorem checkGood_sentBits : checkGood (f.sentBits ++ tail) f.layout = true := by
  have before := body_length f
  have sixteen : f.layout.checkLast + 1 - f.layout.checkFirst = 16 := layoutOf_check_length ..
  have check : f.layout.checkLast = f.layout.checkFirst + 15 := checkLast_layoutOf ..
  have sent : f.sentBits ++ tail = [false] ++ (f.body ++ (numBits (crc f.body) ++ tail)) := by
    simp [Frame.sentBits]
  rw [checkGood_iff sixteen, sent]
  have body : bitsAt ([false] ++ (f.body ++ (numBits (crc f.body) ++ tail))) 2 (f.layout.checkFirst - 1) = f.body := by
    rw [bitsAt_append_right _ _ (by decide), show f.layout.checkFirst - 1 - [false].length = f.body.length by
      change _ - 1 - 1 = _; omega]
    exact bitsAt_append_left ..
  have field : fieldAt ([false] ++ (f.body ++ (numBits (crc f.body) ++ tail))) f.layout.checkFirst f.layout.checkLast =
      (crc f.body).toNat := by
    rw [fieldAt, bitsAt_append_right _ _ (by change 1 < _; omega), bitsAt_append_right _ _ (by change _ < _ - 1; omega)]
    have first : f.layout.checkFirst - [false].length - f.body.length = 1 := by change _ - 1 - _ = _; omega
    have last : f.layout.checkLast - [false].length - f.body.length = 16 := by change _ - 1 - _ = _; omega
    rw [first, last]
    exact fieldAt_numBits_left ..
  rw [body, field]

end

section
variable (tail : List Bool)

/-- The address flag and, where it is set, the address (section 12.1). -/
def addrBits : Option Address → List Bool
  | some a => true :: numBits a
  | none => [false]

theorem offer_body (o : OfferFields) : (Frame.offer o).body =
    headerBits .offer o.level o.sender ++ numBits o.tag ++ numBits o.generation ++ numBits o.cls ++ setBits o.dest ++
      addrBits o.addr := rfl

theorem sentBits_offer (o : OfferFields) : (Frame.offer o).sentBits ++ tail =
    opened .offer o.level o.sender (numBits o.tag ++ (numBits o.generation ++ (numBits o.cls ++ (setBits o.dest ++
      (addrBits o.addr ++ (numBits (crc (Frame.offer o).body) ++ tail)))))) := by
  simp only [Frame.sentBits, offer_body, opened, List.append_assoc, List.cons_append]

theorem sentBits_notice (n : NoticeFields) : (Frame.notice n).sentBits ++ tail =
    opened (wordKind n.word) 0 n.sender (numBits n.target ++ (numBits n.tag ++ (numBits n.generation ++ (numBits n.cls ++
      (numBits n.outcome ++ (numBits (crc (Frame.notice n).body) ++ tail)))))) := by
  simp only [Frame.sentBits, Frame.body, opened, List.append_assoc, List.cons_append]

theorem sentBits_join (sender : StationNumber) (resumed : Bool) : (Frame.join sender resumed).sentBits ++ tail =
    opened .join 0 sender (resumed :: (numBits (crc (Frame.join sender resumed).body) ++ tail)) := by
  simp only [Frame.sentBits, Frame.body, opened, List.append_assoc, List.cons_append, List.nil_append]

theorem sentBits_leave (sender : StationNumber) : (Frame.leave sender).sentBits ++ tail =
    opened .leave 0 sender (numBits (crc (Frame.leave sender).body) ++ tail) := by
  simp only [Frame.sentBits, Frame.body, opened, List.append_assoc, List.cons_append]

theorem rxFrame_offer (o : OfferFields) : rxFrame ((Frame.offer o).sentBits ++ tail) = some (.offer o) := by
  obtain ⟨sender, level, tag, generation, cls, dest, addr⟩ := o
  rw [sentBits_offer]
  unfold rxFrame
  rw [frameKind_opened]
  simp only [rxSender_opened, rxLevel_opened, setAt, setBits, fieldAt_opened, bitAt_opened, fieldAt_numBits_right,
    bitAt_numBits_right, Nat.reduceSub, Nat.reduceLT, fieldAt_numBits_left, BitVec.ofNat_toNat, BitVec.setWidth_eq,
    BitVec.not_not]
  cases addr <;> simp [addrBits, bitAt_head, fieldAt_cons, fieldAt_numBits_left]

theorem rxFrame_notice (n : NoticeFields) : rxFrame ((Frame.notice n).sentBits ++ tail) = some (.notice n) := by
  obtain ⟨word, sender, target, tag, generation, cls, outcome⟩ := n
  rw [sentBits_notice]
  unfold rxFrame
  rw [frameKind_opened]
  cases word <;>
    simp only [wordKind, rxFrame.rxNotice, rxSender_opened, fieldAt_opened, fieldAt_numBits_right, Nat.reduceSub,
      Nat.reduceLT, fieldAt_numBits_left, BitVec.ofNat_toNat, BitVec.setWidth_eq]

theorem rxFrame_join (sender : StationNumber) (resumed : Bool) :
    rxFrame ((Frame.join sender resumed).sentBits ++ tail) = some (.join sender resumed) := by
  rw [sentBits_join]
  unfold rxFrame
  rw [frameKind_opened]
  simp only [rxSender_opened, bitAt_opened, Nat.reduceLT, Nat.reduceSub, bitAt_head]

theorem rxFrame_leave (sender : StationNumber) : rxFrame ((Frame.leave sender).sentBits ++ tail) = some (.leave sender) := by
  rw [sentBits_leave]
  unfold rxFrame
  rw [frameKind_opened]
  simp only [rxSender_opened]

theorem rxFrame_sentBits (f : Frame) : rxFrame (f.sentBits ++ tail) = some f := by
  cases f with
  | offer o => exact rxFrame_offer tail o
  | notice n => exact rxFrame_notice tail n
  | join sender resumed => exact rxFrame_join tail sender resumed
  | leave sender => exact rxFrame_leave tail sender

theorem rxLayout_offer (o : OfferFields) : rxLayout ((Frame.offer o).sentBits ++ tail) = some (Frame.offer o).layout := by
  have sent := sentBits_length (.offer o)
  have long : 42 ≤ ((Frame.offer o).sentBits ++ tail).length := by
    have check := body_length (.offer o)
    rw [List.length_append, Frame.sentBits]
    simp [Frame.body, headerBits, setBits, numBits_length]
    omega
  have flag : bitAt ((Frame.offer o).sentBits ++ tail) 42 = o.addr.isSome := by
    rw [sentBits_offer]
    simp only [setBits, bitAt_opened, bitAt_numBits_right, Nat.reduceSub, Nat.reduceLT]
    cases o.addr <;> rfl
  have kind : frameKind (rxKindCode ((Frame.offer o).sentBits ++ tail)) = some .offer := by
    rw [sentBits_offer, frameKind_opened]
  unfold rxLayout
  rw [if_neg (by omega), kind]
  simp only
  rw [if_neg (by omega), flag]
  rfl

/-- The layout of a kind without an address flag. -/
theorem rxLayout_opened {kind : FrameKind} (level : Level) (sender : StationNumber) (rest : List Bool) (other : kind ≠ .offer) :
    rxLayout (opened kind level sender rest) = some (layoutOf kind false) := by
  unfold rxLayout
  rw [if_neg (by rw [opened_length]; omega), frameKind_opened]
  cases kind
  case offer => exact absurd rfl other
  all_goals rfl

theorem rxLayout_sentBits (f : Frame) : rxLayout (f.sentBits ++ tail) = some f.layout := by
  cases f with
  | offer o => exact rxLayout_offer tail o
  | notice n =>
    rw [sentBits_notice, rxLayout_opened]
    · rfl
    · cases n.word <;> nofun
  | join sender resumed =>
    rw [sentBits_join, rxLayout_opened _ _ _ (by nofun)]
    rfl
  | leave sender =>
    rw [sentBits_leave, rxLayout_opened _ _ _ (by nofun)]
    rfl

end

/-- Settles O52. -/
theorem frameBitsReadBack : Obligations.FrameBitsReadBack :=
  fun f tail => ⟨sentBits_length f, rxFrame_sentBits tail f, rxLayout_sentBits tail f, checkGood_sentBits f tail⟩

end Sys2Proof.Machine
end

section
/-! PROOFS. What the station drives on DBD (R16, R18, R22 to R37): its claim, its own frame, and its answers to the frames of
others. -/

namespace Sys2Proof.Machine

section
variable {s : State}

/-! ### The claim (R29, R30) -/

theorem claimDrive_idle {lay : Layout} {n : Nat}
    (apart : ∀ h, s.claim.offerInHand = some h → h.inClaim = false ∨ h.bid = none) : claimDrive s lay n = true := by
  unfold claimDrive
  split
  case h_1 => rfl
  case h_2 h held =>
    split
    case h_1 => rfl
    case h_2 b bid =>
      have gone : h.inClaim = false := (apart h held).resolve_right (by rw [bid]; nofun)
      rw [gone]
      rfl

theorem claimDrive_past {lay : Layout} {n : Nat} (past : lay.length ≤ n) : claimDrive s lay n = true := by
  unfold claimDrive
  split
  case h_1 => rfl
  case h_2 h held =>
    split
    case h_1 => rfl
    case h_2 => rw [decide_eq_true past, Bool.or_true, if_pos rfl]

section
variable {lay : Layout} {h : OfferInHand} {b : BitVec 6} (held : s.claim.offerInHand = some h) (inClaim : h.inClaim = true)
  (bid : h.bid = some b) (eleven : lay.length = lay.void + 11)
include held inClaim bid eleven

theorem claimDrive_bid {k : Nat} (inside : k < 6) : claimDrive s lay (lay.void + 1 + k) = b.getLsbD (5 - k) := by
  unfold claimDrive
  rw [held]
  simp only [bid, inClaim]
  have first : lay.void + 1 + k - lay.bidFirst = k := Nat.add_sub_cancel_left ..
  rw [if_neg (by simp [Layout.bidFirst]; omega), if_pos (by unfold Layout.claimantFirst; omega), first, BitVec.getMsbD,
    decide_eq_true inside, Bool.true_and]

theorem claimDrive_number {k : Nat} (inside : k < 4) :
    claimDrive s lay (lay.void + 7 + k) = s.control.number.getLsbD (3 - k) := by
  unfold claimDrive
  rw [held]
  simp only [bid, inClaim]
  have first : lay.void + 7 + k - lay.claimantFirst = k := Nat.add_sub_cancel_left ..
  rw [if_neg (by simp [Layout.bidFirst]; omega), if_neg (by unfold Layout.claimantFirst; omega), first, BitVec.getMsbD,
    decide_eq_true inside, Bool.true_and]

end

/-- The claim field as a whole, where the station drives it as `claimDrive` says. -/
theorem drive_claims {lay : Layout} {n : Nat} (eleven : lay.length = lay.void + 11)
    (is : n < lay.length → drive s = claimDrive s lay n) :
    (∀ h b, s.claim.offerInHand = some h → h.inClaim = true → h.bid = some b →
      (∀ k, k < 6 → n = lay.void + 1 + k → drive s = b.getLsbD (5 - k)) ∧
      (∀ k, k < 4 → n = lay.void + 7 + k → drive s = s.control.number.getLsbD (3 - k))) ∧
    ((∀ h, s.claim.offerInHand = some h → h.inClaim = false ∨ h.bid = none) → n < lay.length → drive s = true) := by
  refine ⟨fun h b held inClaim bid => ⟨fun k inside at_ => ?_, fun k inside at_ => ?_⟩, fun apart inside => ?_⟩
  · rw [is (by omega), at_, claimDrive_bid held inClaim bid eleven inside]
  · rw [is (by omega), at_, claimDrive_number held inClaim bid eleven inside]
  · rw [is inside, claimDrive_idle apart]

/-! ### The own frame (R22, R24, R31) -/

section
variable {f : Frame} {bits : List Bool} {n : Nat}

theorem ownDrive_sent (inside : n ≤ f.layout.checkLast) : ownDrive s f bits n = bitAt f.sentBits n := if_pos inside

theorem void_eq (kind : FrameKind) (hasAddr : Bool) :
    (layoutOf kind hasAddr).void = (layoutOf kind hasAddr).checkLast + 1 := by
  cases kind <;> cases hasAddr <;> rfl

theorem offer_length (hasAddr : Bool) : (layoutOf .offer hasAddr).length = (layoutOf .offer hasAddr).void + 11 := by
  cases hasAddr <;> rfl

/-- After its check a frame that is no OFFER drives nothing. -/
theorem ownDrive_quiet (past : f.layout.checkLast < n) (other : f.kind ≠ .offer) : ownDrive s f bits n = true := by
  unfold ownDrive
  rw [if_neg (by omega)]
  cases f with
  | offer o => exact absurd rfl other
  | notice => rfl
  | join => rfl
  | leave => rfl

theorem ownDrive_claim {o : OfferFields} (past : (Frame.offer o).layout.checkLast < n)
    (inside : n < (Frame.offer o).layout.length) :
    ownDrive s (.offer o) bits n = claimDrive s (Frame.offer o).layout n := by
  unfold ownDrive
  rw [if_neg (by omega)]
  simp only
  rw [if_neg (by omega)]

theorem ownDrive_confirm {o : OfferFields} (past : (Frame.offer o).layout.checkLast < n)
    (last : n = (Frame.offer o).layout.length) : ownDrive s (.offer o) bits n =
      !confirms (rxBid bits (Frame.offer o).layout) (rxClaimant bits (Frame.offer o).layout) := by
  unfold ownDrive
  rw [if_neg (by omega)]
  simp only
  rw [if_pos last]

/-- The void slot of an own frame stays undriven: an OFFER's claim begins after it. -/
theorem ownDrive_void : ownDrive s f bits f.layout.void = true := by
  have slot : f.layout.void = f.layout.checkLast + 1 := void_eq ..
  by_cases other : f.kind ≠ .offer
  case pos => exact ownDrive_quiet (by omega) other
  case neg =>
    cases f with
    | offer o =>
      have eleven : (Frame.offer o).layout.length = (Frame.offer o).layout.void + 11 := offer_length _
      rw [ownDrive_claim (by omega) (by omega)]
      unfold claimDrive
      split
      case h_1 => rfl
      case h_2 h held =>
        split
        case h_1 => rfl
        case h_2 => rw [if_pos (by simp [Layout.bidFirst])]
    | notice n => exact absurd (by cases n with | mk word => cases word <;> nofun) other
    | join => exact absurd (by nofun) other
    | leave => exact absurd (by nofun) other

end

/-! ### The answers to a frame of another station (R24, R29, R33, R35, R37) -/

section
variable {bits : List Bool} {lay : Layout} {n : Nat}

theorem answerDrive_unread (unread : rxLayout bits = none) : answerDrive s bits n = true := by
  unfold answerDrive
  rw [unread]

theorem frameKind_of_layout (read : rxLayout bits = some lay) :
    ∃ kind hasAddr, frameKind (rxKindCode bits) = some kind ∧ lay = layoutOf kind hasAddr := by
  unfold rxLayout at read
  split at read
  case isTrue => cases read
  case isFalse =>
    split at read
    case h_1 => cases read
    case h_2 is =>
      split at read
      case isTrue => cases read
      case isFalse => exact ⟨_, _, is, (Option.some.inj read).symm⟩
    case h_3 k _ is => exact ⟨k, false, is, (Option.some.inj read).symm⟩

theorem answerDrive_before (read : rxLayout bits = some lay) (before : n < lay.void) : answerDrive s bits n = true := by
  obtain ⟨kind, hasAddr, is, -⟩ := frameKind_of_layout read
  unfold answerDrive
  rw [read, is]
  exact if_pos before

theorem answerDrive_void (read : rxLayout bits = some lay) :
    answerDrive s bits lay.void = false ↔ s.bus.answer = .void := by
  obtain ⟨kind, hasAddr, is, -⟩ := frameKind_of_layout read
  have at_ : answerDrive s bits lay.void = (s.bus.answer != .void) := by
    unfold answerDrive
    rw [read, is]
    simp only
    rw [if_neg (lt_irrefl _), if_pos trivial]
  rw [at_, bne_eq_false_iff_eq]

section
variable (read : rxLayout bits = some lay) (past : lay.void < n)
include read past

theorem answerDrive_offer (kind : frameKind (rxKindCode bits) = some .offer) :
    answerDrive s bits n = claimDrive s lay n := by
  unfold answerDrive
  rw [read, kind]
  simp only
  rw [if_neg (by omega), if_neg (by omega)]

theorem answerDrive_notice (kind : frameKind (rxKindCode bits) = some .done ∨ frameKind (rxKindCode bits) = some .ret) :
    answerDrive s bits n = match s.bus.answer with
      | .notice heard stale => if n = lay.length then !stale else !heard
      | _ => true := by
  unfold answerDrive
  rw [read]
  rcases kind with kind | kind
  all_goals
    rw [kind]
    simp only
    rw [if_neg (by omega), if_neg (by omega)]
    cases s.bus.answer <;> rfl

theorem answerDrive_join (kind : frameKind (rxKindCode bits) = some .join) :
    answerDrive s bits n = match s.bus.answer with
      | .join presence clash =>
        if n = lay.length then !clash else !(presence && decide (n = 44 - s.control.number.toNat))
      | _ => true := by
  unfold answerDrive
  rw [read, kind]
  simp only
  rw [if_neg (by omega), if_neg (by omega)]
  cases s.bus.answer <;> rfl

theorem answerDrive_leave (kind : frameKind (rxKindCode bits) = some .leave) :
    answerDrive s bits n = !(validated bits lay && rxSender bits != 15) := by
  unfold answerDrive
  rw [read, kind]
  simp only
  rw [if_neg (by omega), if_neg (by omega)]

end

/-- Where the kind is known, the layout is that of the kind. -/
theorem layout_of_kind {kind : FrameKind} (read : rxLayout bits = some lay) (is : frameKind (rxKindCode bits) = some kind) :
    ∃ hasAddr, lay = layoutOf kind hasAddr := by
  obtain ⟨k, hasAddr, known, rfl⟩ := frameKind_of_layout read
  rw [is] at known
  cases known
  exact ⟨hasAddr, rfl⟩

/-- The slots of a notice: heard at 50, stale at 51 (R33). -/
theorem answer_notice (read : rxLayout bits = some lay)
    (kind : frameKind (rxKindCode bits) = some .done ∨ frameKind (rxKindCode bits) = some .ret) :
    (answerDrive s bits 50 = false ↔ ∃ stale, s.bus.answer = .notice true stale) ∧
      (answerDrive s bits 51 = false ↔ ∃ heard, s.bus.answer = .notice heard true) := by
  obtain ⟨void, length⟩ : lay.void = 49 ∧ lay.length = 51 := by
    rcases kind with done | ret
    · obtain ⟨_, rfl⟩ := layout_of_kind read done
      exact ⟨rfl, rfl⟩
    · obtain ⟨_, rfl⟩ := layout_of_kind read ret
      exact ⟨rfl, rfl⟩
  rw [answerDrive_notice read (by omega) kind, answerDrive_notice read (by omega) kind, length]
  cases s.bus.answer <;> simp

/-- The presence positions of a JOIN, station 14 at bit 30 (R35). -/
theorem answer_presence (read : rxLayout bits = some lay) (kind : frameKind (rxKindCode bits) = some .join) {k : Nat}
    (inside : k ≤ 14) : answerDrive s bits (30 + k) = false ↔
      (∃ clash, s.bus.answer = .join true clash) ∧ s.control.number.toNat = 14 - k := by
  obtain ⟨_, rfl⟩ := layout_of_kind read kind
  have past : (layoutOf .join ‹Bool›).void < 30 + k := by change 29 < 30 + k; omega
  have notLast : 30 + k ≠ (layoutOf .join ‹Bool›).length := by change 30 + k ≠ 45; omega
  have place : 30 + k = 44 - s.control.number.toNat ↔ s.control.number.toNat = 14 - k := by omega
  rw [answerDrive_join read past kind]
  cases s.bus.answer
  case join presence clash =>
    simp only [if_neg notLast, place]
    cases presence <;> simp
  all_goals simp

theorem answer_clash (read : rxLayout bits = some lay) (kind : frameKind (rxKindCode bits) = some .join) :
    answerDrive s bits 45 = false ↔ ∃ presence, s.bus.answer = .join presence true := by
  obtain ⟨_, rfl⟩ := layout_of_kind read kind
  have past : (layoutOf .join ‹Bool›).void < 45 := by change 29 < 45; omega
  have last : (layoutOf .join ‹Bool›).length = 45 := rfl
  rw [answerDrive_join read past kind, last]
  cases s.bus.answer <;> simp

theorem answer_leave (read : rxLayout bits = some lay) (kind : frameKind (rxKindCode bits) = some .leave) :
    answerDrive s bits 29 = false ↔ checkGood bits lay = true ∧ bitAt bits 28 = true ∧ rxSender bits ≠ 15 := by
  obtain ⟨_, rfl⟩ := layout_of_kind read kind
  have past : (layoutOf .leave ‹Bool›).void < 29 := by change 28 < 29; omega
  have slot : (layoutOf .leave ‹Bool›).void = 28 := rfl
  rw [answerDrive_leave read past kind, validated, slot]
  simp [and_assoc]

end

/-! ### The level driven (R16, R18, R42) -/

theorem drive_undriven (off : s.held = true ∨ s.receiving = false ∨ s.control.state.sends = false ∨ s.bus.position = none) :
    drive s = true := by
  unfold drive
  split
  case isTrue => rfl
  case isFalse on =>
    simp only [Bool.or_eq_true, Bool.not_eq_true', not_or] at on
    obtain ⟨⟨notHeld, receiving⟩, sends⟩ := on
    rcases off with held | silent | mute | between
    · exact absurd held notHeld
    · exact absurd silent receiving
    · exact absurd mute sends
    · rw [between]

section
variable {bits : List Bool} (run : s.held = false) (receiving : s.receiving = true) (sends : s.control.state.sends = true)
  (position : s.bus.position = some bits)
include run receiving sends position

theorem drive_receiver (lost : ∀ f, s.bus.ownFrame = some f → f.status = .lost) :
    drive s = answerDrive s bits (bits.length + 1) := by
  unfold drive
  rw [run, receiving, sends, position]
  rw [if_neg (by simp)]
  simp only
  split
  case h_1 => rfl
  case h_2 f flight =>
    rw [lost f flight]

theorem drive_own {f : OwnFrame} (flight : s.bus.ownFrame = some f) (transmitting : f.status = .transmitting) :
    drive s = ownDrive s f.frame bits (bits.length + 1) := by
  unfold drive
  rw [run, receiving, sends, position, flight]
  rw [if_neg (by simp)]
  simp only [transmitting]

theorem drive_stopped {f : OwnFrame} (flight : s.bus.ownFrame = some f) (bad : f.status = .broken ∨ f.status = .voided) :
    drive s = true := by
  unfold drive
  rw [run, receiving, sends, position, flight]
  rw [if_neg (by simp)]
  rcases bad with bad | bad <;> simp only [bad]

end

/-! ### What frames make the station learn and drive, part by part -/

section
variable {sender : StationNumber}

theorem noticeSenderLearned_learns (run : s.held = false) (receiving : s.receiving = true) (known : sender ≠ 15) :
    exec (.noticeSenderLearned sender) s = .next { s with
      control.roster := setAdd s.control.roster sender, bus.answer := .none } := by
  have here : effect (.noticeSenderLearned sender) s = setAnswer .none (addToRoster sender s) :=
    fromStation_received receiving known fun s => setAnswer .none (addToRoster sender s)
  rw [exec_of_run run, here]
  rfl

theorem joinAnswer_answers (run : s.held = false) (receiving : s.receiving = true) (known : sender ≠ 15) :
    exec (.joinAnswer sender) s = .next { s with
      bus.answer :=
        if s.control.state = .online ∨ s.control.state = .draining then .join true (decide (sender = s.control.number))
        else .none } := by
  have here : effect (.joinAnswer sender) s = _ := fromStation_received receiving known _
  rw [exec_of_run run, here]
  by_cases answers : s.control.state.answers = true
  · rw [if_pos answers, if_pos (answers_iff.1 answers)]
    rfl
  · rw [if_neg answers, if_neg (mt answers_iff.2 answers)]
    rfl

theorem checkFoundBad_voids (run : s.held = false) (receiving : s.receiving = true) :
    exec .checkFoundBad s = .next { s with bus.answer := if s.control.state = .muted then .none else .void } := by
  have here : effect .checkFoundBad s = _ := whenReceiving_received receiving _
  have receives : s.control.state.receives = true := (receiving_iff.1 receiving).2
  rw [exec_of_run run, here]
  cases state : s.control.state
  case joining | online | draining | muted => rfl
  all_goals rw [state] at receives; cases receives

end

section
variable {f : Frame} {bits : List Bool} {n : Nat}

/-- The claim and the confirm slot of an own OFFER. -/
theorem ownDrive_offer (is : drive s = ownDrive s f bits n) (kind : f.kind = .offer) (past : f.layout.void < n) :
    ((∀ h b, s.claim.offerInHand = some h → h.inClaim = true → h.bid = some b →
        (∀ k, k < 6 → n = f.layout.void + 1 + k → drive s = b.getLsbD (5 - k)) ∧
        (∀ k, k < 4 → n = f.layout.void + 7 + k → drive s = s.control.number.getLsbD (3 - k))) ∧
      ((∀ h, s.claim.offerInHand = some h → h.inClaim = false ∨ h.bid = none) → n < f.layout.length → drive s = true)) ∧
    (n = f.layout.length →
      (drive s = false ↔ (rxBid bits f.layout).toNat ≤ 62 ∧ (rxClaimant bits f.layout).toNat ≤ 14)) := by
  have slot : f.layout.void = f.layout.checkLast + 1 := void_eq ..
  cases f with
  | offer o =>
    have eleven : (Frame.offer o).layout.length = (Frame.offer o).layout.void + 11 := offer_length _
    refine ⟨drive_claims eleven fun inside => is.trans (ownDrive_claim (by omega) inside), fun last => ?_⟩
    rw [is, ownDrive_confirm (by omega) last, Bool.not_eq_false', confirms_iff]
  | notice n => exact absurd kind (by cases n with | mk word => cases word <;> nofun)
  | join => cases kind
  | leave => cases kind

end

end

/-- Settles O39: learning and answering by the three commands, and the level driven by the part of the frame it falls in. -/
theorem framesOfOthersAnswered : Obligations.FramesOfOthersAnswered := by
  refine ⟨fun sender s run => ⟨fun receiving known => ⟨noticeSenderLearned_learns run receiving known,
    joinAnswer_answers run receiving known⟩, checkFoundBad_voids run⟩, fun s => ?_⟩
  intro claims
  refine ⟨drive_undriven, fun bits run receiving sends position => ?_⟩
  intro n
  refine ⟨fun f flight => ⟨drive_stopped run receiving sends position flight, fun transmitting => ?_⟩, fun lost => ?_⟩
  · have is : drive s = ownDrive s f.frame bits n := drive_own run receiving sends position flight transmitting
    have slot : f.frame.layout.void = f.frame.layout.checkLast + 1 := void_eq ..
    exact ⟨fun inside => is.trans (ownDrive_sent inside), fun void => is.trans (void ▸ ownDrive_void),
      fun other past => is.trans (ownDrive_quiet (by omega) other), fun kind past => ownDrive_offer is kind past⟩
  · have is : drive s = answerDrive s bits n := drive_receiver run receiving sends position lost
    rw [is]
    refine ⟨answerDrive_unread, fun lay read => ⟨answerDrive_before read, fun void => ?_, fun code past => ?_, fun code => ?_,
      fun code => ?_, fun code last => ?_⟩⟩
    · rw [void]
      exact answerDrive_void read
    · have kind : frameKind (rxKindCode bits) = some .offer := by rw [code]; rfl
      obtain ⟨hasAddr, rfl⟩ := layout_of_kind read kind
      have claim := answerDrive_offer (s := s) read past kind
      exact ⟨drive_claims (offer_length hasAddr) fun _ => is.trans claim, fun last => claim.trans (claimDrive_past last.ge)⟩
    · have kind : frameKind (rxKindCode bits) = some .done ∨ frameKind (rxKindCode bits) = some .ret := by
        rcases code with code | code
        · exact .inl (by rw [code]; rfl)
        · exact .inr (by rw [code]; rfl)
      obtain ⟨heard, stale⟩ := answer_notice (s := s) read kind
      exact ⟨fun at_ => at_ ▸ heard, fun at_ => at_ ▸ stale⟩
    · have kind : frameKind (rxKindCode bits) = some .join := by rw [code]; rfl
      exact ⟨fun k inside at_ => at_ ▸ answer_presence read kind inside, fun at_ => at_ ▸ answer_clash read kind⟩
    · have kind : frameKind (rxKindCode bits) = some .leave := by rw [code]; rfl
      exact last ▸ answer_leave read kind

end Sys2Proof.Machine
end

section
/-! PROOFS. What the block does with no command waiting (R16 to R31, R58, R65, R84, R85, R174, R175): the expiries, one bit
period, and the edges of the local port. -/

namespace Sys2Proof.Machine

section
variable {s : State}

/-! ### The empty queue -/

theorem step_empty (empty : s.pending = []) : step s = .next (idle s) := by
  unfold step
  rw [empty]

theorem idle_due (empty : s.pending = []) (due : dueExpiries s ≠ []) : idle s = { s with pending := dueExpiries s } := by
  unfold idle
  split
  case h_1 c rest is => rw [is, queueEvents, empty, List.nil_append]
  case h_2 none => exact absurd none due

theorem idle_rest (none : dueExpiries s = []) (quiet : s.inputs = []) : idle s = s := by
  unfold idle
  rw [none]
  simp only
  rw [quiet]

theorem idle_input {e : PinInput} {rest : List PinInput} (none : dueExpiries s = []) (waiting : s.inputs = e :: rest) :
    idle s = takeInput e { s with inputs := rest } := by
  unfold idle
  rw [none]
  simp only
  rw [waiting]

/-! ### The lines and the boundary (R20, R39, R65, R84) -/

section
variable (src : BitVec 8) (l : Line)

theorem sampleLine_entry : (sampleLine s src l).1 = { entryAt s l with
    oppositeSeen := decide (src.getLsbD l.val ≠ (entryAt s l).takenHigh) && !(entryAt s l).oppositeSeen } := by
  unfold sampleLine
  simp only [beq_iff_eq]
  by_cases same : src.getLsbD l.val = (entryAt s l).takenHigh
  · rw [if_pos same, decide_eq_false (not_not_intro same)]
    rfl
  · rw [if_neg same, decide_eq_true same, Bool.true_and]
    cases seen : (entryAt s l).oppositeSeen <;> rfl

theorem sampleLine_events : (sampleLine s src l).2 =
    if src.getLsbD l.val ≠ (entryAt s l).takenHigh ∧ (entryAt s l).oppositeSeen = true then
      if src.getLsbD l.val = true ↔ (s.control.config.sourceConfig l).polarity = .high then [.lineBecomesActive l]
      else [.lineBecomesInactive l]
    else [] := by
  unfold sampleLine
  simp only [beq_iff_eq]
  by_cases same : src.getLsbD l.val = (entryAt s l).takenHigh
  · rw [if_pos same, if_neg fun turned => turned.1 same]
  · rw [if_neg same]
    cases seen : (entryAt s l).oppositeSeen with
    | false => exact (if_neg fun turned : _ ∧ false = true => nomatch turned.2).symm
    | true =>
      have polarity : src.getLsbD l.val = ((s.control.config.sourceConfig l).polarity == .high) ↔
          (src.getLsbD l.val = true ↔ (s.control.config.sourceConfig l).polarity = .high) := by
        rw [Bool.eq_iff_iff, beq_iff_eq]
      exact (if_congr polarity rfl rfl).trans (if_pos ⟨same, rfl⟩).symm

theorem lineEvents_eq : lineEvents s src = (List.finRange 8).flatMap fun l =>
    if src.getLsbD l.val ≠ (entryAt s l).takenHigh ∧ (entryAt s l).oppositeSeen = true then
      if src.getLsbD l.val = true ↔ (s.control.config.sourceConfig l).polarity = .high then [.lineBecomesActive l]
      else [.lineBecomesInactive l]
    else [] :=
  congrArg (List.flatMap · _) (funext fun l => sampleLine_events src l)

end

theorem boundaryEvents_eq : boundaryEvents s =
    if s.control.state.sends = true ∧ s.bus.position = none ∧ s.bus.ownFrame = none ∧
      (if s.bus.synchronised then 8 else 110) ≤ s.bus.recessiveRun then [.frameStart] else [] := by
  unfold boundaryEvents
  simp only [Bool.and_eq_true, Option.isNone_iff_eq_none, decide_eq_true_eq, and_assoc]
  rfl

theorem bitPeriod_running (run : s.held = false) (dbd : Bool) (src : BitVec 8) : bitPeriod dbd src s =
    queueEvents ((busBit dbd s).2 ++ tickEvents s ++ lineEvents s src ++ boundaryEvents (busBit dbd s).1)
      { (busBit dbd s).1 with
        offer.tickCount := s.offer.tickCount + 1
        sources := Vector.ofFn fun l => (sampleLine s src l).1 } := by
  unfold bitPeriod
  rw [run]
  rfl

/-! ### One bit on DBD, outside a frame (R16, R19, R20) -/

section
variable {read : Bool}

theorem busBit_deaf (deaf : s.control.state.receives = false) : busBit read s = (s, []) := by
  unfold busBit
  rw [deaf]
  rfl

theorem busBit_unsynchronised (hears : s.control.state.receives = true) (lost : s.bus.synchronised = false) :
    busBit read s = ({ s with bus.recessiveRun := if read then s.bus.recessiveRun + 1 else 0 },
      if 110 ≤ (if read then s.bus.recessiveRun + 1 else 0) then [.synchronisationQuiet] else []) := by
  unfold busBit
  rw [hears, lost]
  rfl

theorem busBit_between (hears : s.control.state.receives = true) (synchronised : s.bus.synchronised = true)
    (between : s.bus.position = none) :
    busBit read s = ({ s with
      bus := if read = false ∧ 8 ≤ s.bus.recessiveRun then { s.bus with position := some [false], answer := .none }
        else { s.bus with recessiveRun := if read then s.bus.recessiveRun + 1 else 0 } }, []) := by
  unfold busBit
  rw [hears, synchronised, between]
  simp only [Bool.not_true, Bool.false_eq_true, if_false, Bool.and_eq_true, Bool.not_eq_true', decide_eq_true_eq]
  by_cases opens : read = false ∧ 8 ≤ s.bus.recessiveRun
  · rw [if_pos opens]
    exact if_pos opens
  · rw [if_neg opens]
    exact if_neg opens

theorem busBit_inside {before : List Bool} (hears : s.control.state.receives = true)
    (synchronised : s.bus.synchronised = true) (inside : s.bus.position = some before) :
    busBit read s = insideBit read before s := by
  unfold busBit
  rw [hears, synchronised, inside]
  rfl

end

/-! ### One bit inside a frame (R20 to R31) -/

section
variable {read : Bool} {before : List Bool}

/-- The own frame after the bit. -/
def ownAfter (read : Bool) (before : List Bool) (s : State) : Option OwnFrame :=
  s.bus.ownFrame.map (ownReads (before ++ [read]).length (drive s) read)

theorem insideBit_events : (insideBit read before s).2 =
    match ownAfter read before s with
    | none => receiverEvents s (before ++ [read]) (before ++ [read]).length []
    | some f =>
      if f.status == .lost then
        receiverEvents s (before ++ [read]) (before ++ [read]).length (ownEnd f (before ++ [read]))
      else transmitterEvents f (before ++ [read]) (before ++ [read]).length := by
  unfold insideBit
  simp only
  split <;> rfl

theorem insideBit_bus_goesOn (on : frameOver (ownAfter read before s) (before ++ [read]) (before ++ [read]).length = false) :
    (insideBit read before s).1.bus =
      { s.bus with ownFrame := ownAfter read before s, position := some (before ++ [read]) } := by
  unfold insideBit
  simp only
  rw [← ownAfter, on]
  rfl

theorem insideBit_bus_over (over_ : frameOver (ownAfter read before s) (before ++ [read]) (before ++ [read]).length = true) :
    (insideBit read before s).1.bus =
      { s.bus with ownFrame := ownAfter read before s, position := none, recessiveRun := 0, answer := .none } := by
  unfold insideBit
  simp only
  rw [← ownAfter, over_]
  rfl

theorem insideBit_ownFrame : (insideBit read before s).1.bus.ownFrame = ownAfter read before s := by
  obtain ⟨bus, is, -, -, own⟩ := insideBit_bus_claim read before s
  rw [is]
  exact own

/-! ### The claim at a bit (R29, R30) -/

theorem insideBit_claim : (insideBit read before s).1.claim = { s.claim with
    offerInHand := s.claim.offerInHand.map
      (claimReads (inClaimField (before ++ [read]) (before ++ [read]).length) (drive s) read) } := by
  obtain ⟨bus, is, -⟩ := insideBit_bus_claim read before s
  rw [is]

theorem insideBit_claim_kept
    (kept : ∀ h, claimReads (inClaimField (before ++ [read]) (before ++ [read]).length) (drive s) read h = h) :
    (insideBit read before s).1.claim = s.claim := by
  rw [insideBit_claim, funext kept]
  simp

theorem claimReads_kept {field driven : Bool} {h : OfferInHand} (kept : read = true ∨ driven = false ∨ field = false) :
    claimReads field driven read h = h := by
  unfold claimReads
  rcases kept with rfl | rfl | rfl <;> simp

theorem inClaimField_iff {bits : List Bool} {n : Nat} : inClaimField bits n = true ↔
    ∃ lay, rxLayout bits = some lay ∧ rxKindCode bits = 4 ∧ lay.void < n ∧ n < lay.length := by
  have offer : frameKind (rxKindCode bits) = some .offer ↔ rxKindCode bits = 4 := by
    unfold frameKind
    split <;> simp_all
  unfold inClaimField
  rw [Bool.and_eq_true, beq_iff_eq, offer]
  cases rxLayout bits with
  | none => simp
  | some lay =>
    simp only [Option.any_some, Bool.and_eq_true, decide_eq_true_eq, Option.some.injEq, exists_eq_left']
    rfl

end

/-! ### The own frame at a bit (R23, R25, R27) -/

theorem layoutOf_places (kind : FrameKind) (hasAddr : Bool) :
    27 ≤ (layoutOf kind hasAddr).checkLast ∧ (layoutOf kind hasAddr).void = (layoutOf kind hasAddr).checkLast + 1 ∧
      (layoutOf kind hasAddr).void < (layoutOf kind hasAddr).length := by
  cases kind <;> cases hasAddr <;> decide

theorem ownReads_eq (n : Nat) (driven read : Bool) (f : OwnFrame) : ownReads n driven read f = { f with
    status :=
      if f.status ≠ .transmitting then f.status
      else if n ≤ 11 ∧ driven = true ∧ read = false then .lost
      else if (n ≤ f.frame.layout.checkLast ∨ (f.frame.kind = .offer ∧ n = f.frame.layout.length)) ∧ driven ≠ read then .broken
      else if n = f.frame.layout.void ∧ read = false then .voided
      else .transmitting } := by
  obtain ⟨check, void, long⟩ := layoutOf_places f.frame.kind f.frame.hasAddr
  rw [← Frame.layout] at check void long
  obtain ⟨candidate, frame, status⟩ := f
  simp only at check void long
  unfold ownReads
  simp only [bne_iff_ne]
  by_cases transmitting : status = .transmitting
  case neg => rw [if_pos transmitting, if_pos transmitting]
  case pos =>
    subst transmitting
    rw [if_neg (not_not_intro rfl), if_neg (not_not_intro rfl)]
    by_cases contention : n ≤ 11
    · have early : n ≤ frame.layout.checkLast := by omega
      have notVoid : n ≠ frame.layout.void := by omega
      cases driven <;> cases read <;> simp [contention, early, notVoid]
    · by_cases compared : n ≤ frame.layout.checkLast ∨ (frame.kind = .offer ∧ n = frame.layout.length)
      · have notVoid : n ≠ frame.layout.void := by omega
        cases driven <;> cases read <;> simp [contention, compared, notVoid]
      · cases driven <;> cases read <;> simp [contention, compared]
        all_goals split <;> rfl

/-! ### What a receiver hands over at a bit (R21, R24, R26) -/

section
variable {bits : List Bool} {lay : Layout} {last : List Instr}

theorem layout_places (read : rxLayout bits = some lay) :
    27 ≤ lay.checkLast ∧ lay.void = lay.checkLast + 1 ∧ lay.void < lay.length := by
  obtain ⟨kind, hasAddr, -, rfl⟩ := frameKind_of_layout read
  exact layoutOf_places kind hasAddr

theorem frameKind_none {code : Nat} : frameKind code = none ↔ 5 ≤ code := by
  match code with
  | 0 | 1 | 2 | 3 | 4 => decide
  | n + 5 => exact iff_of_true rfl (Nat.le_add_left 5 n)

theorem receiverEvents_read (n : Nat) (read : rxLayout bits = some lay) : receiverEvents s bits n last =
    if n = lay.checkLast then (if checkGood bits lay then [] else [.checkFoundBad])
    else if n = lay.void then (if validated bits lay then validatedEvents s bits else [])
    else if n = lay.length then (if validated bits lay then receivedEvents bits lay else []) ++ last
    else [] := by
  obtain ⟨kind, -, is, -⟩ := frameKind_of_layout read
  unfold receiverEvents
  rw [is, read]
  simp

theorem receiverEvents_unread {n : Nat} (other : n ≠ 4) (unread : rxLayout bits = none) :
    receiverEvents s bits n last = [] := by
  unfold receiverEvents
  rw [unread]
  simp [other]

theorem receiverEvents_kind : receiverEvents s bits 4 last =
    if 5 ≤ rxKindCode bits then [.unreadableKind (BitVec.ofNat 3 (rxKindCode bits))] else [] := by
  cases read : rxLayout bits with
  | some lay =>
    obtain ⟨check, void, long⟩ := layout_places read
    obtain ⟨kind, -, is, -⟩ := frameKind_of_layout read
    have known : ¬ 5 ≤ rxKindCode bits := by rw [← frameKind_none, is]; nofun
    rw [receiverEvents_read 4 read, if_neg (by omega), if_neg (by omega), if_neg (by omega), if_neg known]
  | none =>
    unfold receiverEvents
    rw [read]
    by_cases unknown : 5 ≤ rxKindCode bits
    · rw [if_pos unknown, frameKind_none.2 unknown]
      rfl
    · rw [if_neg unknown]
      have known := mt frameKind_none.1 unknown
      simp [known]

theorem validated_iff : validated bits lay = true ↔ checkGood bits lay = true ∧ bitAt bits lay.void = true := by
  rw [validated, Bool.and_eq_true]

/-- The commands of one bit as a receiver reads it, `last` standing for the end of an own frame that lost to the frame read. -/
def ReceiverReads (number : StationNumber) (bits : List Bool) (last frame : List Instr) : Prop :=
  (bits.length = 4 →
    frame = if 5 ≤ rxKindCode bits then [.unreadableKind (BitVec.ofNat 3 (rxKindCode bits))] else []) ∧
  (bits.length ≠ 4 → rxLayout bits = none → frame = []) ∧
  ∀ lay, rxLayout bits = some lay →
    (bits.length = lay.checkLast → frame = if checkGood bits lay = true then [] else [.checkFoundBad]) ∧
    (bits.length = lay.void → ¬ (checkGood bits lay = true ∧ bitAt bits lay.void = true) → frame = []) ∧
    (bits.length = lay.length → ¬ (checkGood bits lay = true ∧ bitAt bits lay.void = true) → frame = last) ∧
    (∀ f, checkGood bits lay = true → bitAt bits lay.void = true → rxFrame bits = some f →
      (bits.length = lay.void →
        frame = match f with
          | .offer o => [.offerValidated o]
          | .notice n => if n.target = number then [.noticeReceived n] else []
          | .join sender _ => [.joinAnswer sender]
          | .leave _ => []) ∧
      (bits.length = lay.length →
        frame = (match f with
          | .offer _ => [.claimAsRead (rxBid bits lay) (rxClaimant bits lay) (!bitAt bits lay.length)]
          | .notice n => [.noticeSenderLearned n.sender]
          | .join sender resumed => [.joinReceived sender resumed (!bitAt bits lay.length)]
          | .leave sender => [.leaveReceived sender]) ++ last)) ∧
    (bits.length ≠ 4 → bits.length ≠ lay.checkLast → bits.length ≠ lay.void → bits.length ≠ lay.length → frame = [])

theorem receiverEvents_reads (s : State) (bits : List Bool) (last : List Instr) :
    ReceiverReads s.control.number bits last (receiverEvents s bits bits.length last) := by
  refine ⟨fun four => four ▸ receiverEvents_kind, receiverEvents_unread, fun lay read => ?_⟩
  obtain ⟨check, void, long⟩ := layout_places read
  rw [receiverEvents_read bits.length read]
  refine ⟨fun at_ => if_pos at_, fun at_ bad => ?_, fun at_ bad => ?_, fun f good slot is => ⟨fun at_ => ?_, fun at_ => ?_⟩,
    fun _ notCheck notVoid notLast => ?_⟩
  · rw [if_neg (by omega), if_pos at_, if_neg (mt validated_iff.1 bad)]
  · rw [if_neg (by omega), if_neg (by omega), if_pos at_, if_neg (mt validated_iff.1 bad), List.nil_append]
  · rw [if_neg (by omega), if_pos at_, if_pos (validated_iff.2 ⟨good, slot⟩), validatedEvents, is]
    cases f <;> rfl
  · rw [if_neg (by omega), if_neg (by omega), if_pos at_, if_pos (validated_iff.2 ⟨good, slot⟩), receivedEvents, is]
    cases f <;> rfl
  · rw [if_neg notCheck, if_neg notVoid, if_neg notLast]

/-- A frame read ends at the length of its layout. -/
theorem frameOver_read {own : Option OwnFrame} (lost : ∀ f, own = some f → f.status = .lost) (n : Nat) :
    frameOver own bits n = true ↔ ∃ lay, rxLayout bits = some lay ∧ n = lay.length := by
  have read : frameOver own bits n = (rxLayout bits).any fun lay => n == lay.length := by
    unfold frameOver
    split
    case h_1 f => rw [lost f rfl]; rfl
    case h_2 => rfl
  rw [read]
  simp [Option.any_eq_true]

theorem frameOver_own {f : OwnFrame} (kept : f.status ≠ .lost) (n : Nat) :
    frameOver (some f) bits n = true ↔ n = f.frame.layout.length := by
  unfold frameOver
  simp [kept]

end

/-! ### The frame and its commands after the bit -/

section
variable {read : Bool} {before : List Bool}

theorem bus_over (over_ : frameOver (ownAfter read before s) (before ++ [read]) (before ++ [read]).length = true) :
    (insideBit read before s).1.bus = { s.bus with
      ownFrame := (insideBit read before s).1.bus.ownFrame, position := none, recessiveRun := 0, answer := .none } := by
  rw [insideBit_ownFrame]
  exact insideBit_bus_over over_

theorem bus_goesOn (on : frameOver (ownAfter read before s) (before ++ [read]) (before ++ [read]).length = false) :
    (insideBit read before s).1.bus = { s.bus with
      ownFrame := (insideBit read before s).1.bus.ownFrame, position := some (before ++ [read]) } := by
  rw [insideBit_ownFrame]
  exact insideBit_bus_goesOn on

/-- A receiver, a station that has lost contention among them, reads the frame to the length of its layout (R21, R23). -/
theorem insideBit_receives (lost : ∀ f, ownAfter read before s = some f → f.status = .lost) {last : List Instr}
    (events : (insideBit read before s).2 = receiverEvents s (before ++ [read]) (before ++ [read]).length last) :
    (∀ lay, rxLayout (before ++ [read]) = some lay → (before ++ [read]).length = lay.length →
      (insideBit read before s).1.bus = { s.bus with
        ownFrame := (insideBit read before s).1.bus.ownFrame, position := none, recessiveRun := 0, answer := .none }) ∧
    ((∀ lay, rxLayout (before ++ [read]) = some lay → (before ++ [read]).length ≠ lay.length) →
      (insideBit read before s).1.bus = { s.bus with
        ownFrame := (insideBit read before s).1.bus.ownFrame, position := some (before ++ [read]) }) ∧
    ReceiverReads s.control.number (before ++ [read]) last (insideBit read before s).2 := by
  refine ⟨fun lay is long => bus_over ((frameOver_read lost _).2 ⟨lay, is, long⟩), fun short => bus_goesOn ?_, ?_⟩
  · rw [← Bool.not_eq_true, frameOver_read lost]
    rintro ⟨lay, is, long⟩
    exact short lay is long
  · rw [events]
    exact receiverEvents_reads s _ last

theorem insideBit_noFrame (none : s.bus.ownFrame = none) :
    ownAfter read before s = Option.none ∧
      (insideBit read before s).2 = receiverEvents s (before ++ [read]) (before ++ [read]).length [] := by
  have after : ownAfter read before s = Option.none := by rw [ownAfter, none]; rfl
  exact ⟨after, by rw [insideBit_events, after]⟩

theorem insideBit_lost {f : OwnFrame} (own : ownAfter read before s = some f) (lost : f.status = .lost) :
    (insideBit read before s).2 =
      receiverEvents s (before ++ [read]) (before ++ [read]).length (ownEnd f (before ++ [read])) := by
  rw [insideBit_events, own]
  simp [lost]

theorem insideBit_kept {f : OwnFrame} (own : ownAfter read before s = some f) (kept : f.status ≠ .lost) :
    (insideBit read before s).2 = transmitterEvents f (before ++ [read]) (before ++ [read]).length := by
  rw [insideBit_events, own]
  simp [kept]

theorem transmitterEvents_end {f : OwnFrame} {bits : List Bool} (last : bits.length = f.frame.layout.length) :
    transmitterEvents f bits bits.length = ownEnd f bits := by
  obtain ⟨-, -, long⟩ := layoutOf_places f.frame.kind f.frame.hasAddr
  rw [← Frame.layout] at long
  have notVoid : bits.length ≠ f.frame.layout.void := by omega
  unfold transmitterEvents
  rw [decide_eq_false notVoid, if_pos last]
  rfl

theorem transmitterEvents_within {f : OwnFrame} {bits : List Bool} (within : bits.length ≠ f.frame.layout.length) :
    transmitterEvents f bits bits.length = match f.frame with
      | .offer o => if f.status = .transmitting ∧ bits.length = f.frame.layout.void then [.offerValidated o] else []
      | .notice _ => []
      | .join _ _ => []
      | .leave _ => [] := by
  unfold transmitterEvents
  rw [if_neg within]
  by_cases asks : f.status = .transmitting ∧ bits.length = f.frame.layout.void
  · obtain ⟨transmitting, void⟩ := asks
    rw [void, transmitting]
    cases f.frame <;> simp
  · have silent : (decide (bits.length = f.frame.layout.void) && f.status == .transmitting) = false := by
      rw [← Bool.not_eq_true, Bool.and_eq_true, decide_eq_true_eq, beq_iff_eq]
      exact fun both => asks both.symm
    rw [silent]
    obtain ⟨candidate, frame, status⟩ := f
    cases frame with
    | offer o => exact (if_neg asks).symm
    | notice | join | leave => rfl

end

/-! ### The pins of the local port (R174, R175) -/

theorem portFall_held (held : s.held = true) : portFall s = { s with port.scsLow := true } := by
  unfold portFall
  rw [held]
  rfl

theorem portFall_running (run : s.held = false) : portFall s = { s with
    freeDrawn := s.freeDrawn + 1
    port := { scsLow := true, active := true, bits := [], bytes := [], taken := false, response := [], shifted := 0 } } := by
  unfold portFall
  rw [run]
  rfl

theorem portRise_eq (empty : s.pending = []) : portRise s = { s with
    port := { s.port with scsLow := false, active := false }
    pending := if s.port.active = true ∧ s.port.taken = false then [.transactionDiscarded] else [] } := by
  unfold portRise queueEvents
  simp only [Bool.and_eq_true, Bool.not_eq_true', empty, List.nil_append]
  by_cases incomplete : s.port.active = true ∧ s.port.taken = false
  · rw [if_pos incomplete, if_pos incomplete]
  · rw [if_neg incomplete, if_neg incomplete]

section
variable {sdi : Bool}

theorem portClock_released (released : s.port.active = false) : portClock sdi s = s := by
  unfold portClock
  rw [released]
  rfl

section
variable (active : s.port.active = true) (incomplete : s.port.taken = false)
include active incomplete

theorem portClock_bit (short : (s.port.bits ++ [sdi]).length < 8) :
    portClock sdi s = { s with freeDrawn := s.freeDrawn + 1, port.bits := s.port.bits ++ [sdi] } := by
  unfold portClock
  rw [active, incomplete]
  exact if_pos short

theorem portClock_byte (full : 8 ≤ (s.port.bits ++ [sdi]).length)
    (more : decodePort (s.port.bytes ++ [BitVec.ofNat 8 (bitsNum (s.port.bits ++ [sdi]))]) = none) :
    portClock sdi s = { s with
      freeDrawn := s.freeDrawn + 1
      port := { s.port with
        bits := [], bytes := s.port.bytes ++ [BitVec.ofNat 8 (bitsNum (s.port.bits ++ [sdi]))] } } := by
  unfold portClock
  rw [active, incomplete]
  simp only
  rw [if_neg Bool.false_ne_true, if_neg (not_lt.2 full), more]
  rfl

theorem portClock_command {c : Instr} (empty : s.pending = []) (full : 8 ≤ (s.port.bits ++ [sdi]).length)
    (command : decodePort (s.port.bytes ++ [BitVec.ofNat 8 (bitsNum (s.port.bits ++ [sdi]))]) = some c) :
    portClock sdi s = { s with
      freeDrawn := s.freeDrawn + 1
      port := { s.port with
        bits := [], bytes := s.port.bytes ++ [BitVec.ofNat 8 (bitsNum (s.port.bits ++ [sdi]))], taken := true }
      pending := [c] } := by
  unfold portClock queueEvents
  rw [active, incomplete]
  simp only
  rw [if_neg Bool.false_ne_true, if_neg (not_lt.2 full), command, empty]
  rfl

end

end

/-! ### One bit period -/

/-- What a bit period leaves outside the units it writes, and the commands it queues in the order of log 3. -/
theorem bitPeriod_eq (empty : s.pending = []) (run : s.held = false) (dbd : Bool) (src : BitVec 8) :
    bitPeriod dbd src s = { s with
      pending := (bitPeriod dbd src s).pending
      sources := (bitPeriod dbd src s).sources
      bus := (busBit dbd s).1.bus
      offer.tickCount := s.offer.tickCount + 1
      claim.offerInHand := (busBit dbd s).1.claim.offerInHand } ∧
    (bitPeriod dbd src s).pending =
      (busBit dbd s).2 ++ tickEvents s ++ lineEvents s src ++ boundaryEvents (busBit dbd s).1 := by
  obtain ⟨bus, hand, is⟩ : ∃ bus hand, (busBit dbd s).1 = { s with bus := bus, claim.offerInHand := hand } := by
    unfold busBit
    split
    case isTrue => exact ⟨_, _, rfl⟩
    case isFalse =>
      simp only
      split
      case isTrue => exact ⟨_, _, rfl⟩
      case isFalse =>
        split
        case h_1 =>
          obtain ⟨bus, eq, -⟩ := insideBit_bus_claim dbd _ s
          exact ⟨bus, _, eq⟩
        case h_2 => split <;> exact ⟨_, _, rfl⟩
  rw [bitPeriod_running run, is]
  refine ⟨rfl, ?_⟩
  change s.pending ++ _ = _
  rw [empty, List.nil_append]

theorem bitPeriod_entry (run : s.held = false) (dbd : Bool) (src : BitVec 8) (l : Line) :
    entryAt (bitPeriod dbd src s) l = { entryAt s l with
      oppositeSeen := decide (src.getLsbD l.val ≠ (entryAt s l).takenHigh) && !(entryAt s l).oppositeSeen } := by
  rw [bitPeriod_running run, ← sampleLine_entry]
  exact Vector.getElem_ofFn l.isLt

theorem bitPeriod_bus (run : s.held = false) (dbd : Bool) (src : BitVec 8) :
    (bitPeriod dbd src s).bus = (busBit dbd s).1.bus := by
  rw [bitPeriod_running run]
  rfl

theorem bitPeriod_claim (run : s.held = false) (dbd : Bool) (src : BitVec 8) :
    (bitPeriod dbd src s).claim = (busBit dbd s).1.claim := by
  rw [bitPeriod_running run]
  rfl

theorem busBit_synchronised (dbd : Bool) : (busBit dbd s).1.bus.synchronised = s.bus.synchronised := by
  unfold busBit
  split
  case isTrue => rfl
  case isFalse =>
    simp only
    split
    case isTrue => rfl
    case isFalse =>
      split
      case h_1 before _ =>
        obtain ⟨bus, eq, synchronised, -⟩ := insideBit_bus_claim dbd before s
        rw [eq]
        exact synchronised
      case h_2 => split <;> rfl

/-- Inside a frame the bit is read, compared with the one driven and, in the claim field, moves the claim. -/
theorem insideBit_reads (dbd : Bool) (before : List Bool) :
    (insideBit dbd before s).1.bus.synchronised = s.bus.synchronised ∧
    (insideBit dbd before s).1.bus.errorCount = s.bus.errorCount ∧
    (dbd = true ∨ drive s = false → (insideBit dbd before s).1.claim = s.claim) ∧
    ((∀ lay, rxLayout (before ++ [dbd]) = some lay → rxKindCode (before ++ [dbd]) = 4 →
        lay.void < (before ++ [dbd]).length → lay.length ≤ (before ++ [dbd]).length) →
      (insideBit dbd before s).1.claim = s.claim) ∧
    (∀ lay, rxLayout (before ++ [dbd]) = some lay → rxKindCode (before ++ [dbd]) = 4 →
      lay.void < (before ++ [dbd]).length → (before ++ [dbd]).length < lay.length → drive s = true → dbd = false →
      (insideBit dbd before s).1.claim.offerInHand = s.claim.offerInHand.map fun h => { h with inClaim := false }) := by
  obtain ⟨bus, is, synchronised, errors, -⟩ := insideBit_bus_claim dbd before s
  refine ⟨by rw [is]; exact synchronised, by rw [is]; exact errors, fun kept => ?_, fun outside => ?_,
    fun lay read kind past within driven dominant => ?_⟩
  · exact insideBit_claim_kept fun h => claimReads_kept (kept.imp_right .inl)
  · refine insideBit_claim_kept fun h => claimReads_kept (.inr (.inr ?_))
    rw [← Bool.not_eq_true, inClaimField_iff]
    rintro ⟨lay, read, kind, past, within⟩
    exact absurd (outside lay read kind past) (by omega)
  · have field := inClaimField_iff.2 ⟨lay, read, kind, past, within⟩
    rw [insideBit_claim, field, driven, dominant]
    rfl

end

/-- Settles O3: the cases of `idle`, and for a bit period those of `busBit`. -/
theorem emptyQueueIdles : Obligations.EmptyQueueIdles := by
  intro s empty due
  rw [step_empty empty]
  refine ⟨fun waiting => congrArg _ (idle_due empty waiting), fun none quiet => congrArg _ (idle_rest none quiet),
    fun none dbd src rest inputs => ⟨fun held => ?_, fun held => ?_⟩, fun none rest => ⟨fun inputs => ⟨fun held => ?_, fun run => ?_⟩,
      fun inputs => ?_, fun sdi inputs => ?_⟩⟩
  all_goals rw [idle_input none inputs]
  · have frozen : bitPeriod dbd src { s with inputs := rest } = { s with inputs := rest } := if_pos held
    exact congrArg _ frozen
  · intro differs run
    set u : State := { s with inputs := rest }
    obtain ⟨whole, queued⟩ := bitPeriod_eq (s := u) empty held dbd src
    have bus := bitPeriod_bus (s := u) held dbd src
    have claim := bitPeriod_claim (s := u) held dbd src
    refine ⟨bitPeriod dbd src u, (busBit dbd u).2, rfl, ?_, bitPeriod_entry (s := u) held dbd src, ?_, fun deaf => ?_,
      fun hears lost => ?_, fun hears synchronised between => ?_, fun before hears synchronised inside => ?_⟩
    · rw [← bus] at whole
      exact whole.trans (by rw [← claim])
    · rw [queued, lineEvents_eq, boundaryEvents_eq, busBit_control, bus, busBit_synchronised]
      rfl
    · rw [bus, claim, busBit_deaf (s := u) deaf]
      exact ⟨rfl, rfl, rfl⟩
    · rw [bus, claim, busBit_unsynchronised (s := u) hears lost]
      exact ⟨rfl, rfl, rfl⟩
    · rw [bus, claim, busBit_between (s := u) hears synchronised between]
      exact ⟨rfl, rfl, rfl⟩
    · rw [bus, claim, busBit_inside (s := u) hears synchronised inside]
      obtain ⟨same, errors, kept, outside, moves⟩ := insideBit_reads (s := u) dbd before
      intro bits
      refine ⟨same.trans synchronised, errors, kept, outside, moves, ?_⟩
      intro fate goesOn isOver receives
      refine ⟨fun alone => ?_, fun f flight => ?_⟩
      · obtain ⟨after, events⟩ := insideBit_noFrame (s := u) (read := dbd) (before := before) alone
        exact ⟨insideBit_ownFrame.trans after, insideBit_receives (by rw [after]; nofun) events⟩
      · have after : ownAfter dbd before u = some (ownReads bits.length (drive u) dbd f) := congrArg (Option.map _) flight
        set own := ownReads bits.length (drive u) dbd f with own_eq
        have sameFrame : own.frame = f.frame := by rw [own_eq, ownReads_eq]
        have ends : fate own = ownEnd own bits := by
          obtain ⟨candidate, frame, status⟩ := own
          cases candidate <;> cases status <;> rfl
        refine ⟨own, insideBit_ownFrame.trans after, ownReads_eq _ _ _ f, fun lost => ?_,
          fun fares => ⟨fun last => ?_, fun within => ?_⟩⟩
        · rw [ends]
          exact insideBit_receives (fun _ held => by rw [after] at held; cases held; exact lost) (insideBit_lost after lost)
        · rw [← sameFrame] at last
          rw [ends, insideBit_kept after fares, transmitterEvents_end last]
          exact ⟨bus_over (by rw [after, frameOver_own fares]; exact last), rfl⟩
        · rw [← sameFrame] at within
          rw [insideBit_kept after fares, transmitterEvents_within within, sameFrame]
          refine ⟨bus_goesOn (by rw [after, ← Bool.not_eq_true, frameOver_own fares]; exact within), ?_⟩
          cases f.frame <;> rfl
  · exact congrArg _ (portFall_held (s := { s with inputs := rest }) held)
  · exact congrArg _ (portFall_running (s := { s with inputs := rest }) run)
  · exact congrArg _ (portRise_eq (s := { s with inputs := rest }) empty)
  · exact ⟨fun released => congrArg _ (portClock_released (s := { s with inputs := rest }) released),
      fun active taken => congrArg _ (portClock_taken (s := { s with inputs := rest }) active taken sdi),
      fun active incomplete short => congrArg _ (portClock_bit (s := { s with inputs := rest }) active incomplete short),
      fun active incomplete full more =>
        congrArg _ (portClock_byte (s := { s with inputs := rest }) active incomplete full more),
      fun c active incomplete full command =>
        congrArg _ (portClock_command (s := { s with inputs := rest }) active incomplete empty full command)⟩

end Sys2Proof.Machine
end

section
/-! PROOFS. Records acted on one after another (R93, R97, R110, R112, R163): what one act touches and leaves, how acts compose,
and what became of each record and in which order the numbers were drawn once all have been acted on. -/

namespace Sys2Proof.Machine

/-! ### Which records an act touches -/

/-- A line has made the record in a state in which lines make records (R66). -/
def MadeByLine (s : State) (x : OutRecord) : Prop := s.control.state.creates = true ∧ LineMade s x

/-- From `s` to `t` no record but the touched ones has been changed or has left the list, and a record that is not of `s` has
the tag of a touched one or has been made by a line; reports and numbers have only been added, none to a full queue. -/
structure Touches (touched : OutRecord → Prop) (s t : State) : Prop where
  control : t.control = s.control
  queue : s.reports.queue <+: t.reports.queue
  full : 16 ≤ s.reports.queue.length → t.reports.queue = s.reports.queue
  numbers : s.reports.resolutionCounter ≤ t.reports.resolutionCounter
  lists : s.ListsSound → t.ListsSound
  kept : ∀ x ∈ s.offer.records, ¬ touched x → x ∈ t.offer.records
  made : ∀ x ∈ t.offer.records, x ∈ s.offer.records ∨ MadeByLine s x ∨ ∃ r, touched r ∧ r.tag = x.tag

section
variable {s t u : State} {touched touched' : OutRecord → Prop}

theorem LineMade.congr {x : OutRecord} (h : LineMade s x) (control : t.control = s.control) : LineMade t x := by
  unfold LineMade lineRecord at h ⊢
  rwa [control]

theorem MadeByLine.congr {x : OutRecord} (h : MadeByLine s x) (control : t.control = s.control) : MadeByLine t x :=
  ⟨by rw [control]; exact h.1, h.2.congr control⟩

theorem Touches.refl (s : State) (touched : OutRecord → Prop) : Touches touched s s where
  control := rfl
  queue := List.prefix_rfl
  full := fun _ => rfl
  numbers := le_rfl
  lists := id
  kept := fun _ mem _ => mem
  made := fun _ mem => .inl mem

theorem Touches.trans (h : Touches touched s t) (k : Touches touched' t u) :
    Touches (fun r => touched r ∨ touched' r) s u where
  control := k.control.trans h.control
  queue := h.queue.trans k.queue
  full := fun full => by
    have same := h.full full
    exact (k.full (by rw [same]; exact full)).trans same
  numbers := h.numbers.trans k.numbers
  lists := fun lists => k.lists (h.lists lists)
  kept := fun x mem apart => k.kept x (h.kept x mem fun own => apart (.inl own)) fun own => apart (.inr own)
  made := fun x mem => by
    rcases k.made x mem with old | line | ⟨r, own, tag⟩
    · rcases h.made x old with older | line | ⟨r, own, tag⟩
      · exact .inl older
      · exact .inr (.inl line)
      · exact .inr (.inr ⟨r, .inl own, tag⟩)
    · exact .inr (.inl (line.congr h.control.symm))
    · exact .inr (.inr ⟨r, .inr own, tag⟩)

theorem Touches.mono (h : Touches touched s t) (more : ∀ r, touched r → touched' r) : Touches touched' s t where
  control := h.control
  queue := h.queue
  full := h.full
  numbers := h.numbers
  lists := h.lists
  kept := fun x mem apart => h.kept x mem fun own => apart (more x own)
  made := fun x mem => (h.made x mem).imp_right (Or.imp_right fun ⟨r, own, tag⟩ => ⟨r, more r own, tag⟩)

/-- Ticket moves touch what they are seen to touch in the list of records. -/
theorem Touches.of_moves (moves : TicketMoves s t)
    (kept : ∀ x ∈ s.offer.records, ¬ touched x → x ∈ t.offer.records)
    (made : ∀ x ∈ t.offer.records, x ∈ s.offer.records ∨ MadeByLine s x ∨ ∃ r, touched r ∧ r.tag = x.tag) :
    Touches touched s t where
  control := moves.onlyTickets.control
  queue := moves.onlyTickets.reports
  full := moves.queue_full
  numbers := moves.onlyTickets.numbers
  lists := moves.keeps TicketStep.listsSound
  kept := kept
  made := made

/-- What station control, the bus unit and the entries do beside the records touches none. -/
theorem Touches.of_eq (control : t.control = s.control) (records : t.offer.records = s.offer.records)
    (reports : t.reports = s.reports) (claim : t.claim = s.claim) : Touches touched s t where
  control := control
  queue := by rw [reports]
  full := fun _ => by rw [reports]
  numbers := by rw [reports]
  lists := fun lists => lists.of_parts (by rw [records]; exact lists.tags) (by rw [reports]; exact lists.queue) (by rw [claim])
  kept := fun x mem _ => by rw [records]; exact mem
  made := fun x mem => .inl (by rw [← records]; exact mem)

end

/-! ### The lines' records -/

section
variable {s : State}

theorem mem_fixResolution {r x : OutRecord} {res : Resolution} (mem : x ∈ (fixResolution r res s).offer.records) :
    (x ∈ s.offer.records ∧ x.tag ≠ r.tag) ∨
      (leavesAtOnce r s = false ∧ x = { r with state := .resolved res s.reports.resolutionCounter }) := by
  rcases fixResolution_cases r res s with ⟨-, records, -⟩ | ⟨waits, records, -⟩
  · rw [records] at mem
    exact .inl (mem_dropRecord.1 mem)
  · rw [records] at mem
    obtain ⟨y, held, rfl⟩ := List.mem_map.1 mem
    split
    case isTrue => exact .inr ⟨waits, rfl⟩
    case isFalse other => exact .inl ⟨held, by simpa using other⟩

theorem mem_makeSourceRecord {l : Line} {x : OutRecord} (mem : x ∈ (makeSourceRecord l s).offer.records) :
    x ∈ s.offer.records ∨ LineMade s x := by
  unfold makeSourceRecord createRecord at mem
  simp only at mem
  split at mem
  case isTrue =>
    rcases List.mem_append.1 mem with old | new
    · exact .inl old
    · obtain rfl := List.mem_singleton.1 new
      exact .inr ⟨l, rfl, .inl rfl⟩
  case isFalse =>
    rcases mem_fixResolution mem with ⟨placed, other⟩ | ⟨-, rfl⟩
    · rcases List.mem_append.1 placed with old | new
      · exact .inl old
      · obtain rfl := List.mem_singleton.1 new
        exact absurd rfl other
    · exact .inr ⟨l, rfl, .inr ⟨_, rfl⟩⟩

theorem mem_serveSource {l : Line} {x : OutRecord} (mem : x ∈ (serveSource l s).offer.records) :
    x ∈ s.offer.records ∨ LineMade s x := by
  unfold serveSource at mem
  split at mem
  case isTrue => exact mem_makeSourceRecord mem
  case isFalse => exact .inl mem

theorem mem_serveWaiting {x : OutRecord} (n : Nat) (mem : x ∈ (serveWaiting n s).offer.records) :
    x ∈ s.offer.records ∨ LineMade s x := by
  induction n generalizing s with
  | zero => exact .inl mem
  | succ n ih =>
    unfold serveWaiting at mem
    split at mem
    case h_1 => exact .inl mem
    case h_2 l _ =>
      split at mem
      case isTrue =>
        rcases ih mem with made | line
        · exact mem_makeSourceRecord made
        · exact .inr (line.congr (onlyTickets_makeSourceRecord l s).control.symm)
      case isFalse => exact .inl mem

theorem mem_placeFreed {source : Source} {x : OutRecord} (mem : x ∈ (placeFreed source s).offer.records) :
    x ∈ s.offer.records ∨ MadeByLine s x := by
  cases creates : s.control.state.creates with
  | false =>
    rw [placeFreed_silent creates] at mem
    exact .inl mem
  | true =>
    cases source with
    | soft => exact (mem_serveWaiting 8 mem).imp_right (⟨creates, ·⟩)
    | line l =>
      rcases mem_serveWaiting 8 mem with served | line
      · exact (mem_serveSource served).imp_right (⟨creates, ·⟩)
      · exact .inr ⟨creates, line.congr (onlyTickets_serveSource l s).control.symm⟩

/-! ### One record resolved or put -/

theorem mem_resolveRecord {r x : OutRecord} {res : Resolution} (mem : x ∈ (resolveRecord r res s).offer.records) :
    (x ∈ s.offer.records ∧ x.tag ≠ r.tag) ∨ MadeByLine s x ∨
      (leavesAtOnce r s = false ∧ x = { r with state := .resolved res s.reports.resolutionCounter }) := by
  unfold resolveRecord at mem
  split at mem
  case isTrue leaves =>
    rcases mem_placeFreed mem with fixed | line
    · exact (mem_fixResolution fixed).imp_right .inr
    · exact .inr (.inl (line.congr (onlyTickets_fixResolution r res s).control.symm))
  case isFalse => exact (mem_fixResolution mem).imp_right .inr

theorem resolveRecord_kept {r x : OutRecord} {res : Resolution} (mem : x ∈ s.offer.records) (other : x.tag ≠ r.tag) :
    x ∈ (resolveRecord r res s).offer.records := by
  have fixed : x ∈ (fixResolution r res s).offer.records := by
    rcases fixResolution_cases r res s with ⟨-, records, -⟩ | ⟨-, records, -⟩
    · rw [records]
      exact mem_dropRecord.2 ⟨mem, other⟩
    · rw [records]
      exact List.mem_map.2 ⟨x, mem, if_neg (by simpa using other)⟩
  unfold resolveRecord
  split
  case isTrue => exact (placeFreed_keeps _ _).subset fixed
  case isFalse => exact fixed

/-- A record of the list is resolved, or a revision of one in its place. -/
theorem resolveRecord_touches {r old : OutRecord} {res : Resolution} (moves : TicketMoves s (resolveRecord r res s))
    (mem : old ∈ s.offer.records) (tag : r.tag = old.tag) (lists : s.ListsSound) :
    Touches (· = old) s (resolveRecord r res s) := by
  refine .of_moves moves (fun x held apart => resolveRecord_kept held fun same => ?_) fun x made => ?_
  · exact apart (tag_inj lists.tags.2 held mem (same.trans tag))
  · rcases mem_resolveRecord made with ⟨held, -⟩ | line | ⟨-, rfl⟩
    · exact .inl held
    · exact .inr (.inl line)
    · exact .inr (.inr ⟨old, rfl, tag.symm⟩)

theorem putRecord_touches {r old : OutRecord} (moves : TicketMoves s (putRecord r s)) (mem : old ∈ s.offer.records)
    (tag : r.tag = old.tag) (lists : s.ListsSound) : Touches (· = old) s (putRecord r s) := by
  refine .of_moves moves (fun x held apart => ?_) fun x made => ?_
  · have other : x.tag ≠ r.tag := fun same => apart (tag_inj lists.tags.2 held mem (same.trans tag))
    exact List.mem_map.2 ⟨x, held, if_neg (by simpa using other)⟩
  · obtain ⟨y, held, rfl⟩ := List.mem_map.1 made
    split
    case isTrue => exact .inr (.inr ⟨old, rfl, tag.symm⟩)
    case isFalse => exact .inl held

/-! ### How a record ended -/

/-- As `EndedIn`, and a tag that is free again is taken only where lines make records. -/
def Ended (r : OutRecord) (res : Resolution) (s t : State) : Prop :=
  ((classOf s r.cls).report = true ∧ 16 ≤ t.reports.queue.length ∧
      ∃ k, s.reports.resolutionCounter ≤ k ∧ { r with state := .resolved res k } ∈ t.offer.records) ∨
    ((∀ x ∈ t.offer.records, x.tag = r.tag → MadeByLine s x) ∧
      ((classOf s r.cls).report = true → recordReport r res ∈ t.reports.queue))

section
variable {t u : State} {r : OutRecord} {res : Resolution} {touched : OutRecord → Prop}

theorem Ended.endedIn (h : Ended r res s t) : EndedIn r res s t :=
  h.imp_right fun ⟨gone, placed⟩ => ⟨fun x mem tag => (gone x mem tag).2, placed⟩

/-- What has ended stays so while other records are touched. -/
theorem Ended.after (h : Ended r res s t) (control : t.control = s.control) (k : Touches touched t u)
    (other : ∀ x, touched x → x.tag ≠ r.tag) : Ended r res s u := by
  rcases h with ⟨report, full, n, drawn, waits⟩ | ⟨gone, placed⟩
  · refine .inl ⟨report, full.trans k.queue.length_le, n, drawn, k.kept _ waits fun own => ?_⟩
    exact other _ own rfl
  · refine .inr ⟨fun x mem tag => ?_, fun report => k.queue.subset (placed report)⟩
    rcases k.made x mem with old | line | ⟨y, own, same⟩
    · exact gone x old tag
    · exact line.congr control.symm
    · exact absurd (same.trans tag) (other y own)

/-- What has ended since a later state has ended since an earlier one. -/
theorem Ended.before (h : Ended r res t u) (k : Touches touched s t) : Ended r res s u := by
  have cls : classOf t r.cls = classOf s r.cls := congrArg (fun c : StationControl => c.config.classEntry r.cls) k.control
  unfold Ended at h
  rw [cls] at h
  rcases h with ⟨report, full, n, drawn, waits⟩ | ⟨gone, placed⟩
  · exact .inl ⟨report, full, n, k.numbers.trans drawn, waits⟩
  · exact .inr ⟨fun x mem tag => (gone x mem tag).congr k.control.symm, placed⟩

/-- Where no line makes a record, an ended record is gone unless it waits. -/
theorem Ended.quiet (h : Ended r res s t) (silent : s.control.state.creates = false) :
    ((classOf s r.cls).report = true → recordReport r res ∈ t.reports.queue ∨
      16 ≤ t.reports.queue.length ∧ ∃ k, { r with state := .resolved res k } ∈ t.offer.records) ∧
    ((classOf s r.cls).report = false → ∀ x ∈ t.offer.records, x.tag ≠ r.tag) := by
  rcases h with ⟨report, full, n, -, waits⟩ | ⟨gone, placed⟩
  · exact ⟨fun _ => .inr ⟨full, n, waits⟩, fun none => by rw [report] at none; cases none⟩
  · refine ⟨fun report => .inl (placed report), fun _ x mem tag => ?_⟩
    have creates := (gone x mem tag).1
    rw [silent] at creates
    cases creates

end

theorem resolveRecord_ended (r old : OutRecord) (res : Resolution) (mem : old ∈ s.offer.records) (tag : r.tag = old.tag) :
    Ended r res s (resolveRecord r res s) := by
  obtain ⟨-, ends⟩ := resolveRecord_resolved r res s
  cases leaves : leavesAtOnce r s with
  | true =>
    refine .inr ⟨fun x held same => ?_, fun report => ?_⟩
    · rcases mem_resolveRecord held with ⟨-, other⟩ | line | ⟨waits, -⟩
      · exact absurd same other
      · exact line
      · rw [leaves] at waits
        cases waits
    · have room : s.reports.queue.length < 16 := (leavesAtOnce_iff.1 leaves).resolve_left (by rw [report]; nofun)
      rw [if_pos report, if_pos room] at ends
      exact ends.1.subset (List.mem_append_right _ (List.mem_singleton_self _))
  | false =>
    have stays := mt leavesAtOnce_iff.2 (by rw [leaves]; nofun)
    push Not at stays
    obtain ⟨report, full⟩ := stays
    have report : (classOf s r.cls).report = true := by simpa using report
    rw [if_pos report, if_neg (by omega)] at ends
    obtain ⟨queue, records⟩ := ends
    refine .inl ⟨report, by rw [queue]; exact full, _, le_rfl, ?_⟩
    rw [records]
    exact List.mem_map.2 ⟨old, mem, if_pos tag.symm⟩

end

/-! ### The order of the ends (R163) -/

/-- From `s` to `t` one end has taken the next resolution number, and with room its report has been placed; without, an item
waits with the number. -/
def EndTaken (report : Report) (waits : Nat → Prop) (s t : State) : Prop :=
  s.reports.resolutionCounter < t.reports.resolutionCounter ∧
    ((s.reports.queue.length < 16 ∧ (s.reports.queue ++ [report]) <+: t.reports.queue) ∨
      (16 ≤ s.reports.queue.length ∧ t.reports.queue = s.reports.queue ∧ waits s.reports.resolutionCounter))

section
variable {s t u v w x : State}

theorem ResolvedIn.taken {r : OutRecord} {res : Resolution} (h : ResolvedIn r res s t)
    (report : (classOf s r.cls).report = true) (mem : ∃ old ∈ s.offer.records, old.tag = r.tag) :
    EndTaken (recordReport r res) (fun k => { r with state := .resolved res k } ∈ t.offer.records) s t := by
  obtain ⟨number, ends⟩ := h
  rw [if_pos report] at ends
  refine ⟨number, ?_⟩
  split at ends
  case isTrue room => exact .inl ⟨room, ends.1⟩
  case isFalse full =>
    obtain ⟨old, held, tag⟩ := mem
    refine .inr ⟨not_lt.1 full, ends.1, ?_⟩
    rw [ends.2]
    exact List.mem_map.2 ⟨old, held, if_pos tag⟩

theorem EndTaken.mono {report : Report} {waits waits' : Nat → Prop} (h : EndTaken report waits s t)
    (more : ∀ k, waits k → waits' k) : EndTaken report waits' s t :=
  ⟨h.1, h.2.imp_right fun ⟨full, same, k⟩ => ⟨full, same, more _ k⟩⟩

/-- The report of an end that found room is behind those that stood before. -/
theorem mem_drop_of_placed {report : Report} {q u v : List Report} (before : q <+: u) (placed : (u ++ [report]) <+: v) :
    report ∈ v.drop q.length := by
  obtain ⟨m, rfl⟩ := before
  obtain ⟨e, rfl⟩ := placed
  rw [List.append_assoc, List.append_assoc, List.drop_left]
  simp

theorem sublist_drop_of_placed {first second : Report} {q u v w x : List Report} (before : q <+: u)
    (placed : (u ++ [first]) <+: v) (between : v <+: w) (placed' : (w ++ [second]) <+: x) :
    [first, second].Sublist (x.drop q.length) := by
  obtain ⟨m, rfl⟩ := before
  obtain ⟨n, rfl⟩ := placed.trans between
  obtain ⟨e, rfl⟩ := placed'
  simp only [List.append_assoc, List.drop_left]
  refine .trans ?_ (List.sublist_append_right m _)
  refine .trans ?_ ((List.sublist_append_right n _).append_left [first])
  exact List.Sublist.append (List.Sublist.refl [first]) (List.sublist_append_left [second] e)

/-- Two ends, one after the other: the queue only grows, and once full it stays so. -/
theorem EndTaken.before {touched₀ touched₁ touched₂ : OutRecord → Prop} {first second : Report}
    {firstWaits secondWaits : Nat → Prop}
    (start : Touches touched₀ s u) (one : EndTaken first firstWaits u v) (between : Touches touched₁ v w)
    (two : EndTaken second secondWaits w x) (rest : Touches touched₂ x t) :
    TakenBefore first firstWaits second secondWaits s t := by
  obtain ⟨lower, one⟩ := one
  obtain ⟨higher, two⟩ := two
  have numbers : s.reports.resolutionCounter ≤ w.reports.resolutionCounter :=
    start.numbers.trans (lower.le.trans between.numbers)
  rcases one with ⟨-, placed⟩ | ⟨full, same, waits⟩
  · rcases two with ⟨-, placed'⟩ | ⟨-, same', waits'⟩
    · exact .inl (sublist_drop_of_placed start.queue placed between.queue (placed'.trans rest.queue))
    · have onward : v.reports.queue <+: t.reports.queue := between.queue.trans (same' ▸ rest.queue)
      exact .inr (.inl ⟨mem_drop_of_placed start.queue (placed.trans onward), _, numbers, waits'⟩)
  · rcases two with ⟨room, -⟩ | ⟨-, -, waits'⟩
    · have longer := between.queue.length_le
      rw [same] at longer
      omega
    · exact .inr (.inr ⟨_, _, start.numbers, lower.trans_le between.numbers, waits, waits'⟩)

end

/-! ### Acting on each record of a list (R97, R110, R112) -/

section
variable {act : OutRecord → State → State} {s : State} {rs before after : List OutRecord} {r : OutRecord}

theorem forRecords_append (tags tags' : List Tag) (act : OutRecord → State → State) (s : State) :
    forRecords (tags ++ tags') act s = forRecords tags' act (forRecords tags act s) := List.foldl_append

theorem forRecords_cons (tags : List Tag) (mem : r ∈ s.offer.records) (lists : s.ListsSound) :
    forRecords (r.tag :: tags) act s = forRecords tags act (act r s) := by
  change forRecords tags act (match findRecord r.tag s.offer.records with | some r => act r s | none => s) = _
  rw [findRecord_of_mem lists.tags.2 mem]

theorem tag_apart (split : rs = before ++ r :: after) (nodup : (rs.map (·.tag)).Nodup) : ∀ x ∈ after, x.tag ≠ r.tag := by
  subst split
  rw [List.map_append, List.nodup_append] at nodup
  obtain ⟨-, nodup, -⟩ := nodup
  intro x later same
  have twice : r.tag ∈ after.map (·.tag) := List.mem_map.2 ⟨x, later, same⟩
  exact (List.nodup_cons.1 nodup).1 twice

section
variable (touches : ∀ {r : OutRecord} {u : State}, r ∈ u.offer.records → u.ListsSound → Touches (· = r) u (act r u))
include touches

theorem forRecords_touches (inList : ∀ r ∈ rs, r ∈ s.offer.records) (nodup : (rs.map (·.tag)).Nodup) (lists : s.ListsSound) :
    Touches (· ∈ rs) s (forRecords (rs.map (·.tag)) act s) := by
  induction rs generalizing s with
  | nil => exact .refl s _
  | cons r rs ih =>
    have mem := inList r List.mem_cons_self
    obtain ⟨fresh, nodup⟩ := List.nodup_cons.1 nodup
    have one := touches mem lists
    rw [List.map_cons, forRecords_cons _ mem lists]
    have rest := ih (s := act r s) (fun x later => one.kept x (inList x (List.mem_cons_of_mem _ later)) ?_) nodup
      (one.lists lists)
    · exact (one.trans rest).mono fun x own => List.mem_cons.2 own
    · rintro rfl
      exact fresh (List.mem_map_of_mem later)

/-- The turn of one record: the ones before it and after it have other tags. -/
theorem forRecords_at (split : rs = before ++ r :: after) (inList : ∀ r ∈ rs, r ∈ s.offer.records)
    (nodup : (rs.map (·.tag)).Nodup) (lists : s.ListsSound) :
    ∃ u, Touches (· ∈ before) s u ∧ r ∈ u.offer.records ∧ u.ListsSound ∧ (∀ x ∈ after, x ∈ (act r u).offer.records) ∧
      forRecords (rs.map (·.tag)) act s = forRecords (after.map (·.tag)) act (act r u) ∧
      Touches (· ∈ after) (act r u) (forRecords (rs.map (·.tag)) act s) := by
  subst split
  rw [List.map_append, List.nodup_append] at nodup
  obtain ⟨nodupBefore, nodupAfter, apart⟩ := nodup
  obtain ⟨fresh, nodupAfter⟩ := List.nodup_cons.1 nodupAfter
  have start := forRecords_touches touches (rs := before) (fun x mem => inList x (List.mem_append_left _ mem)) nodupBefore lists
  set u := forRecords (before.map (·.tag)) act s
  have still (x : OutRecord) (later : x ∈ r :: after) : x ∈ u.offer.records := by
    refine start.kept x (inList x (List.mem_append_right _ later)) fun earlier => ?_
    exact apart _ (List.mem_map_of_mem earlier) _ (List.mem_map_of_mem later) rfl
  have mem := still r List.mem_cons_self
  have listsU := start.lists lists
  have one := touches mem listsU
  have left (x : OutRecord) (later : x ∈ after) : x ∈ (act r u).offer.records := by
    refine one.kept x (still x (List.mem_cons_of_mem _ later)) ?_
    rintro rfl
    exact fresh (List.mem_map_of_mem later)
  have turn : forRecords ((before ++ r :: after).map (·.tag)) act s = forRecords (after.map (·.tag)) act (act r u) := by
    rw [List.map_append, forRecords_append, List.map_cons, forRecords_cons _ mem listsU]
  refine ⟨u, start, mem, listsU, left, turn, ?_⟩
  rw [turn]
  exact forRecords_touches touches left nodupAfter (one.lists listsU)

/-- What one turn leaves under the record's tag stands at the end. -/
theorem forRecords_leaves (mem : r ∈ rs) (inList : ∀ r ∈ rs, r ∈ s.offer.records) (nodup : (rs.map (·.tag)).Nodup)
    (lists : s.ListsSound) {x : OutRecord} (tag : x.tag = r.tag)
    (left : ∀ u : State, u.control = s.control → r ∈ u.offer.records → x ∈ (act r u).offer.records) :
    x ∈ (forRecords (rs.map (·.tag)) act s).offer.records := by
  obtain ⟨before, after, split⟩ := List.append_of_mem mem
  obtain ⟨u, start, held, -, -, -, rest⟩ := forRecords_at touches split inList nodup lists
  refine rest.kept x (left u start.control held) fun later => ?_
  exact tag_apart split nodup x later tag

theorem forRecords_ended {res : Resolution} (mem : r ∈ rs) (inList : ∀ r ∈ rs, r ∈ s.offer.records)
    (nodup : (rs.map (·.tag)).Nodup) (lists : s.ListsSound)
    (resolves : ∀ u : State, u.control = s.control → act r u = resolveRecord r res u) :
    Ended r res s (forRecords (rs.map (·.tag)) act s) := by
  obtain ⟨before, after, split⟩ := List.append_of_mem mem
  obtain ⟨u, start, held, listsU, -, -, rest⟩ := forRecords_at touches split inList nodup lists
  have one := touches held listsU
  rw [resolves u start.control] at rest one
  exact ((resolveRecord_ended r r res held rfl).after one.control rest (tag_apart split nodup)).before start

/-- The number that one turn draws. -/
theorem forRecords_taken {res : Resolution} (split : rs = before ++ r :: after) (inList : ∀ r ∈ rs, r ∈ s.offer.records)
    (nodup : (rs.map (·.tag)).Nodup) (lists : s.ListsSound)
    (resolves : ∀ u : State, u.control = s.control → act r u = resolveRecord r res u) (report : (classOf s r.cls).report = true) :
    ∃ u v, Touches (· ∈ before) s u ∧
      EndTaken (recordReport r res)
        (fun k => { r with state := .resolved res k } ∈ (forRecords (rs.map (·.tag)) act s).offer.records) u v ∧
      (∀ x ∈ after, x ∈ v.offer.records) ∧ v.ListsSound ∧
      forRecords (rs.map (·.tag)) act s = forRecords (after.map (·.tag)) act v ∧
      Touches (· ∈ after) v (forRecords (rs.map (·.tag)) act s) := by
  obtain ⟨u, start, held, listsU, left, turn, rest⟩ := forRecords_at touches split inList nodup lists
  have one := touches held listsU
  have taken := (resolveRecord_resolved r res u).taken (by rw [classOf, start.control]; exact report) ⟨r, held, rfl⟩
  rw [← resolves u start.control] at taken
  refine ⟨u, act r u, start, taken.mono fun k waits => rest.kept _ waits fun later => ?_, left, one.lists listsU, turn, rest⟩
  exact tag_apart split nodup _ later rfl

/-- Of two records resolved, the one first in the list takes its number first (R163). -/
theorem forRecords_inOrder {a b : OutRecord} {resA resB : Resolution} (order : [a, b].Sublist rs)
    (inList : ∀ r ∈ rs, r ∈ s.offer.records) (nodup : (rs.map (·.tag)).Nodup) (lists : s.ListsSound)
    (resolvesA : ∀ u : State, u.control = s.control → act a u = resolveRecord a resA u)
    (resolvesB : ∀ u : State, u.control = s.control → act b u = resolveRecord b resB u)
    (reportA : (classOf s a.cls).report = true) (reportB : (classOf s b.cls).report = true) :
    TakenBefore (recordReport a resA)
      (fun k => { a with state := .resolved resA k } ∈ (forRecords (rs.map (·.tag)) act s).offer.records)
      (recordReport b resB)
      (fun k => { b with state := .resolved resB k } ∈ (forRecords (rs.map (·.tag)) act s).offer.records)
      s (forRecords (rs.map (·.tag)) act s) := by
  obtain ⟨front, back, rfl, inFront, inBack⟩ := List.cons_sublist_iff.1 order
  obtain ⟨p, q, rfl⟩ := List.append_of_mem inFront
  obtain ⟨m, e, rfl⟩ := List.append_of_mem (List.singleton_sublist.1 inBack)
  have split : (p ++ a :: q) ++ (m ++ b :: e) = p ++ a :: ((q ++ m) ++ b :: e) := by simp
  obtain ⟨u, v, start, one, left, listsV, turn, rest⟩ := forRecords_taken touches split inList nodup lists resolvesA reportA
  have nodupAfter : (((q ++ m) ++ b :: e).map (·.tag)).Nodup := by
    rw [split] at nodup
    exact nodup.sublist (((List.sublist_cons_self ..).trans (List.sublist_append_right ..)).map _)
  have control : v.control = s.control := rest.control.symm.trans (forRecords_touches touches inList nodup lists).control
  obtain ⟨w, x, between, two, -, -, turn', rest'⟩ := forRecords_taken touches rfl left nodupAfter listsV
    (fun u' same => resolvesB u' (same.trans control)) (by rw [classOf, control]; exact reportB)
  rw [← turn] at two rest'
  exact EndTaken.before start one between two rest'

end

end

end Sys2Proof.Machine
end

section
/-! PROOFS. The drain limit (R58, R112), and another station's LEAVE and JOIN (R52, R57, R108, R110): the records a station gives
up, each resolved or re-offered, in list order. -/

namespace Sys2Proof.Machine

/-! ### The records that meet a condition, resolved in list order -/

section
variable {s : State} {p : OutRecord → Bool} {act : OutRecord → State → State}

theorem tagsWhere_eq (p : OutRecord → Bool) (s : State) : tagsWhere p s = (s.offer.records.filter p).map (·.tag) := rfl

theorem filter_inList : ∀ r ∈ s.offer.records.filter p, r ∈ s.offer.records := fun _ mem => (List.mem_filter.1 mem).1

theorem filter_nodup (lists : s.ListsSound) : ((s.offer.records.filter p).map (·.tag)).Nodup :=
  lists.tags.2.sublist (List.filter_sublist.map _)

theorem forRecords_endedInListOrder {ends : OutRecord → Resolution → Prop} (lists : s.ListsSound)
    (touches : ∀ {r : OutRecord} {u : State}, r ∈ u.offer.records → u.ListsSound → Touches (· = r) u (act r u))
    (resolves : ∀ r res, ends r res → p r = true ∧ ∀ u : State, u.control = s.control → act r u = resolveRecord r res u) :
    EndedInListOrder ends s (forRecords (tagsWhere p s) act s) := by
  intro a b resA resB order endsA endsB reportA reportB
  obtain ⟨meetsA, resolvesA⟩ := resolves a resA endsA
  obtain ⟨meetsB, resolvesB⟩ := resolves b resB endsB
  have filtered : [a, b].Sublist (s.offer.records.filter p) := by
    have sub := order.filter p
    rwa [List.filter_cons_of_pos meetsA, List.filter_cons_of_pos meetsB, List.filter_nil] at sub
  rw [tagsWhere_eq]
  exact forRecords_inOrder touches filtered filter_inList (filter_nodup lists) lists resolvesA resolvesB reportA reportB

theorem resolve_touches (res : Resolution) {r : OutRecord} {u : State} (mem : r ∈ u.offer.records) (lists : u.ListsSound) :
    Touches (· = r) u (resolveRecord r res u) := resolveRecord_touches (resolveRecord_moves res mem) mem rfl lists

/-! ### Withdrawing (R97, R112) -/

/-- Every record that meets the condition is resolved WITHDRAWN. -/
def withdrawWhere (p : OutRecord → Bool) (s : State) : State := forRecords (tagsWhere p s) (fun r => resolveRecord r .withdrawn) s

theorem withdrawWhere_touches (lists : s.ListsSound) :
    Touches (· ∈ s.offer.records.filter p) s (withdrawWhere p s) :=
  forRecords_touches (resolve_touches .withdrawn) filter_inList (filter_nodup lists) lists

theorem withdrawWhere_ended {r : OutRecord} (mem : r ∈ s.offer.records) (meets : p r = true) (lists : s.ListsSound) :
    Ended r .withdrawn s (withdrawWhere p s) :=
  forRecords_ended (resolve_touches .withdrawn) (List.mem_filter.2 ⟨mem, meets⟩) filter_inList (filter_nodup lists) lists
    fun _ _ => rfl

theorem withdrawWhere_inOrder {ends : OutRecord → Resolution → Prop} (lists : s.ListsSound)
    (resolves : ∀ r res, ends r res → p r = true ∧ res = .withdrawn) : EndedInListOrder ends s (withdrawWhere p s) :=
  forRecords_endedInListOrder lists (resolve_touches .withdrawn) fun r res meets => by
    obtain ⟨held, rfl⟩ := resolves r res meets
    exact ⟨held, fun _ _ => rfl⟩

/-- Where no line makes a record, an ended record that is still there waits for report room. -/
theorem Ended.waits {r x : OutRecord} {res : Resolution} {t : State} (h : Ended r res s t)
    (silent : s.control.state.creates = false) (lists : t.ListsSound) (mem : x ∈ t.offer.records) (tag : x.tag = r.tag) :
    ∃ k, x.state = .resolved res k := by
  rcases h with ⟨-, -, k, -, held⟩ | ⟨gone, -⟩
  · obtain rfl := tag_inj lists.tags.2 mem held tag
    exact ⟨k, rfl⟩
  · have creates := (gone x mem tag).1
    rw [silent] at creates
    cases creates

theorem withdrawWhere_left {x : OutRecord} (lists : s.ListsSound) (silent : s.control.state.creates = false)
    (mem : x ∈ (withdrawWhere p s).offer.records) :
    (x ∈ s.offer.records ∧ p x = false) ∨ ∃ k, x.state = .resolved .withdrawn k := by
  have touches := withdrawWhere_touches (p := p) lists
  have ended {r : OutRecord} (held : r ∈ s.offer.records) (meets : p r = true) (tag : x.tag = r.tag) :=
    (withdrawWhere_ended held meets lists).waits silent (touches.lists lists) mem tag
  rcases touches.made x mem with old | line | ⟨r, own, tag⟩
  · cases meets : p x with
    | false => exact .inl ⟨old, rfl⟩
    | true => exact .inr (ended old meets rfl)
  · have creates := line.1
    rw [silent] at creates
    cases creates
  · obtain ⟨held, meets⟩ := List.mem_filter.1 own
    exact .inr (ended held meets tag.symm)

end

/-- Ticket operations and the drain test that follows them leave the port as it is. -/
theorem OnlyTickets.testDrain {s t : State} (only : OnlyTickets s t) :
    (testDrain t).port = s.port ∧ (testDrain t).control = drainTested s (testDrain t) ∧
      OnlyTickets { s with control := (testDrain t).control } (testDrain t) := by
  obtain ⟨tickets, control⟩ := ticketsThenDrain_testDrain only
  have port : (Machine.testDrain t).port = s.port := by
    rw [testDrain_eq]
    exact only.port
  rw [port] at tickets
  exact ⟨port, control, tickets⟩

theorem testDrain_reports (t : State) : (Machine.testDrain t).reports = t.reports := by rw [testDrain_eq]

/-! ### The drain limit (R58, R112) -/

theorem withdrawRemaining_eq (s : State) : withdrawRemaining s = withdrawWhere (fun r => r.state.isWaitingOrOutstanding) s := rfl

theorem isWaitingOrOutstanding_iff {st : RecordState} :
    st.isWaitingOrOutstanding = true ↔ st = .waiting ∨ ∃ c timer, st = .outstanding c timer := by
  cases st <;> simp [RecordState.isWaitingOrOutstanding]

theorem drainLimitExpired_early {s : State} (early : s.control.state ≠ .draining ∨ s.control.drainTimer ≠ some 0) :
    drainLimitExpired s = s := by
  unfold drainLimitExpired
  exact if_neg fun both => early.elim (· both.1) (· both.2)

/-- Settles O31: every record withdrawn in turn, in a state in which no line makes a record. -/
theorem drainLimitWithdraws : Obligations.DrainLimitWithdraws := by
  intro s run
  refine ⟨fun early => ?_, fun draining due lists => ?_⟩
  · rw [exec_of_run run]
    exact congrArg _ (drainLimitExpired_early early)
  set s₀ : State := { s with control.drainTimer := none, control.drainPassed := true } with s₀_eq
  have expired : drainLimitExpired s = testDrain (withdrawRemaining s₀) := if_pos ⟨draining, due⟩
  have lists₀ : s₀.ListsSound := lists
  have silent : s₀.control.state.creates = false := by rw [s₀_eq]; simp only [draining]; rfl
  set u := withdrawRemaining s₀ with u_eq
  have touches := withdrawWhere_touches (p := fun r => r.state.isWaitingOrOutstanding) lists₀
  have order := withdrawWhere_inOrder (p := fun r => r.state.isWaitingOrOutstanding) (s := s₀)
    (ends := fun r res => res = .withdrawn ∧ (r.state = .waiting ∨ ∃ c timer, r.state = .outstanding c timer)) lists₀
    fun r res meets => ⟨isWaitingOrOutstanding_iff.2 meets.2, meets.1⟩
  rw [← withdrawRemaining_eq, ← u_eq] at touches order
  obtain ⟨port, control, only⟩ := (onlyTickets_withdrawRemaining s₀).testDrain
  have offer := testDrain_offer u
  have reports := testDrain_reports u
  refine ⟨testDrain u, (exec_of_run run _).trans (congrArg _ expired), port, control, only, fun x mem => ?_,
    fun r mem state => ?_, ?_, fun r mem state => ?_⟩
  · rw [offer] at mem
    rcases withdrawWhere_left lists₀ silent mem with ⟨-, other⟩ | ⟨k, state⟩
    · have neither := mt isWaitingOrOutstanding_iff.2 (by rw [other]; nofun)
      push Not at neither
      exact neither
    · rw [state]
      exact ⟨nofun, nofun⟩
  · rw [offer]
    refine touches.kept r mem fun own => ?_
    have meets := (List.mem_filter.1 own).2
    rcases state with ⟨c, state⟩ | ⟨res, n, state⟩
    · rw [state] at meets; cases meets
    · rw [state] at meets; cases meets
  · unfold EndedInListOrder TakenBefore
    rw [offer, reports]
    exact order
  · rw [offer, reports]
    have ended : Ended r .withdrawn s₀ u := withdrawWhere_ended mem (isWaitingOrOutstanding_iff.2 state) lists₀
    obtain ⟨reported, unreported⟩ := ended.quiet silent
    exact ⟨fun report => (reported report).imp_right And.right, unreported⟩

/-! ### Orphaning (R108, R110) -/

section
variable {s : State} {peer : StationNumber}

theorem lapse_reoffered {r : OutRecord} (below : r.generation.toNat < (classOf s r.cls).reofferLimit) : lapse r s =
    putRecord { r with generation := r.generation + 1, attempts := 0, state := .waiting } s := if_pos below

theorem lapse_resolved {r : OutRecord} (last : (classOf s r.cls).reofferLimit ≤ r.generation.toNat) :
    lapse r s = resolveRecord r (.lapsed r.attempts) s := if_neg (not_lt.2 last)

theorem lapse_touches {r : OutRecord} {u : State} (mem : r ∈ u.offer.records) (lists : u.ListsSound) :
    Touches (· = r) u (lapse r u) := by
  have moves := lapse_moves mem
  unfold lapse at moves ⊢
  split at moves
  case isTrue below =>
    rw [if_pos below]
    exact putRecord_touches moves mem rfl lists
  case isFalse last =>
    rw [if_neg last]
    exact resolveRecord_touches moves mem rfl lists

section
variable (lists : s.ListsSound)
include lists

theorem orphan_touches :
    Touches (· ∈ s.offer.records.filter fun r => r.state.isOutstandingWith peer) s (orphan peer s) :=
  forRecords_touches lapse_touches filter_inList (filter_nodup lists) lists

section
variable {r : OutRecord} (mem : r ∈ s.offer.records) (claimed : ∃ timer, r.state = .outstanding peer timer)
include mem claimed

theorem orphan_reoffers (below : r.generation.toNat < (classOf s r.cls).reofferLimit) :
    { r with generation := r.generation + 1, attempts := 0, state := .waiting } ∈ (orphan peer s).offer.records := by
  refine forRecords_leaves (rs := s.offer.records.filter fun r => r.state.isOutstandingWith peer) (r := r) lapse_touches
    (List.mem_filter.2 ⟨mem, isOutstandingWith_iff.2 claimed⟩) filter_inList (filter_nodup lists) lists rfl
    fun u control held => ?_
  rw [lapse_reoffered (by rw [classOf, control]; exact below)]
  exact List.mem_map.2 ⟨r, held, if_pos (beq_self_eq_true _)⟩

theorem orphan_ended (last : (classOf s r.cls).reofferLimit ≤ r.generation.toNat) :
    Ended r (.lapsed r.attempts) s (orphan peer s) :=
  forRecords_ended (rs := s.offer.records.filter fun r => r.state.isOutstandingWith peer) lapse_touches
    (List.mem_filter.2 ⟨mem, isOutstandingWith_iff.2 claimed⟩) filter_inList (filter_nodup lists) lists
    fun u control => lapse_resolved (by rw [classOf, control]; exact last)

theorem orphan_leaves_claim {x : OutRecord} (held : x ∈ (orphan peer s).offer.records) (tag : x.tag = r.tag) :
    ∀ timer, x.state ≠ .outstanding peer timer := by
  have sound := (orphan_touches (peer := peer) lists).lists lists
  rcases Nat.lt_or_ge r.generation.toNat (classOf s r.cls).reofferLimit with below | last
  · obtain rfl := tag_inj sound.tags.2 held (orphan_reoffers lists mem claimed below) tag
    nofun
  · rcases orphan_ended lists mem claimed last with ⟨-, -, k, -, waits⟩ | ⟨gone, -⟩
    · obtain rfl := tag_inj sound.tags.2 held waits tag
      nofun
    · obtain ⟨-, l, -, waiting | ⟨k, resolved⟩⟩ := gone x held tag
      · rw [waiting]; nofun
      · rw [resolved]; nofun

end

theorem orphan_leaves {x : OutRecord} (held : x ∈ (orphan peer s).offer.records) : ∀ timer, x.state ≠ .outstanding peer timer := by
  rcases (orphan_touches lists).made x held with old | ⟨-, l, -, waiting | ⟨k, resolved⟩⟩ | ⟨r, own, tag⟩
  · intro timer claimed
    exact orphan_leaves_claim lists old ⟨timer, claimed⟩ held rfl timer claimed
  · rw [waiting]; nofun
  · rw [resolved]; nofun
  · obtain ⟨mem, meets⟩ := List.mem_filter.1 own
    exact orphan_leaves_claim lists mem (isOutstandingWith_iff.1 meets) held tag.symm

theorem orphan_kept {r : OutRecord} (mem : r ∈ s.offer.records) (other : ∀ timer, r.state ≠ .outstanding peer timer) :
    r ∈ (orphan peer s).offer.records := by
  refine (orphan_touches lists).kept r mem fun own => ?_
  obtain ⟨timer, claimed⟩ := isOutstandingWith_iff.1 (List.mem_filter.1 own).2
  exact other timer claimed

theorem orphan_inOrder : EndedInListOrder (fun r res => (∃ timer, r.state = .outstanding peer timer) ∧
    (classOf s r.cls).reofferLimit ≤ r.generation.toNat ∧ res = .lapsed r.attempts) s (orphan peer s) :=
  forRecords_endedInListOrder lists lapse_touches fun r res meets => by
    obtain ⟨claimed, last, rfl⟩ := meets
    exact ⟨isOutstandingWith_iff.2 claimed, fun u control => lapse_resolved (by rw [classOf, control]; exact last)⟩

/-- What orphaning does to the records of the peer, and to no other. -/
theorem orphan_records :
    (∀ r ∈ (orphan peer s).offer.records, ∀ timer, r.state ≠ .outstanding peer timer) ∧
    EndedInListOrder (fun r res => (∃ timer, r.state = .outstanding peer timer) ∧
      (classOf s r.cls).reofferLimit ≤ r.generation.toNat ∧ res = .lapsed r.attempts) s (orphan peer s) ∧
    ∀ r ∈ s.offer.records,
      ((∀ timer, r.state ≠ .outstanding peer timer) → r ∈ (orphan peer s).offer.records) ∧
      ((∃ timer, r.state = .outstanding peer timer) →
        (r.generation.toNat < (classOf s r.cls).reofferLimit →
          { r with generation := r.generation + 1, attempts := 0, state := .waiting } ∈ (orphan peer s).offer.records) ∧
        ((classOf s r.cls).reofferLimit ≤ r.generation.toNat → EndedIn r (.lapsed r.attempts) s (orphan peer s))) :=
  ⟨fun _ held => orphan_leaves lists held, orphan_inOrder lists, fun _ mem => ⟨orphan_kept lists mem, fun claimed =>
    ⟨orphan_reoffers lists mem claimed, fun last => (orphan_ended lists mem claimed last).endedIn⟩⟩⟩

end

end

/-! ### What a peer's going leaves in the roster (R52 to R54, R57) -/

section
variable {s : State} {sender : StationNumber}

theorem setHas_setRemove_self (roster : StationSet) (n : StationNumber) : setHas (setRemove roster n) n = false := by
  unfold setHas setRemove setOf
  rw [BitVec.getLsbD_and, BitVec.getLsbD_not, BitVec.getLsbD_shiftLeft]
  by_cases inside : n.toNat < 15 <;> simp [inside]

theorem setRemove_absent {roster : StationSet} {n : StationNumber} (absent : setHas roster n = false) :
    setRemove roster n = roster := by
  unfold setHas at absent
  unfold setRemove setOf
  refine BitVec.eq_of_getLsbD_eq fun i inside => ?_
  rw [BitVec.getLsbD_and, BitVec.getLsbD_not, BitVec.getLsbD_shiftLeft]
  by_cases at_ : i = n.toNat
  · rw [at_, absent, Bool.false_and]
  · have apart : i < n.toNat ∨ i - n.toNat ≠ 0 := by omega
    rcases apart with low | high
    · simp [inside, low]
    · simp [inside, BitVec.getLsbD_one, high]

theorem orphanPeer_known (known : setHas s.control.roster sender = true) (other : sender ≠ s.control.number) :
    orphanPeer sender s = orphan sender s := by
  unfold orphanPeer
  rw [known]
  simp [other]

theorem orphanPeer_other (unknown : setHas s.control.roster sender = false ∨ sender = s.control.number) :
    orphanPeer sender s = s := by
  unfold orphanPeer
  rcases unknown with absent | own
  · rw [absent]; rfl
  · rw [own]; simp

/-- Station control changed after the tickets, and the drain tested: only the tickets' own units have moved beside it. -/
theorem controlChanged_tested {t : State} (only : OnlyTickets s t) (c : StationControl) :
    (testDrain { t with control := c }).port = s.port ∧ (testDrain { t with control := c }).bus = s.bus ∧
      (testDrain { t with control := c }).control = drainTested { s with control := c } (testDrain { t with control := c }) ∧
      OnlyTickets { s with control := (testDrain { t with control := c }).control } (testDrain { t with control := c }) := by
  have beside : OnlyTickets { s with control := c } { t with control := c } :=
    ⟨only.bus, rfl, only.claim, only.work, only.port, only.held, only.pending, only.inputs, only.freeDrawn, only.tickCount,
      only.masks, only.reports, only.numbers⟩
  obtain ⟨port, control, tickets⟩ := beside.testDrain
  exact ⟨port, tickets.bus, control, tickets⟩

end

/-! ### LEAVE (R37, R57) -/

section
variable {s : State} {sender : StationNumber}

/-- The acknowledge slot is driven in JOINING, ONLINE and DRAINING (R37). -/
theorem leaveReceived_effect (run : s.held = false) (receiving : s.receiving = true) (known : sender ≠ 15) :
    exec (.leaveReceived sender) s = .next (leaveRead sender { s with
      bus.answer := if s.control.state = .muted then .none else .acknowledge }) := by
  have here : effect (.leaveReceived sender) s =
      leaveRead sender (setAnswer (if s.control.state.sends then .acknowledge else .none) s) :=
    fromStation_received receiving known fun s =>
      leaveRead sender (setAnswer (if s.control.state.sends then .acknowledge else .none) s)
  have receives : s.control.state.receives = true := (receiving_iff.1 receiving).2
  rw [exec_of_run run, here]
  have answered : (if s.control.state.sends then Answer.acknowledge else .none) =
      if s.control.state = .muted then .none else .acknowledge := by
    cases state : s.control.state
    case joining | online | draining | muted => rfl
    all_goals rw [state] at receives; cases receives
  rw [answered]
  rfl

theorem leaveRead_absent (absent : setHas s.control.roster sender = false) : leaveRead sender s = s := by
  unfold leaveRead
  rw [absent]
  rfl

theorem leaveRead_stays (stays : goesAtLeave sender s = false) : leaveRead sender s = s := by
  unfold leaveRead
  rw [stays, Bool.and_false]
  rfl

theorem leaveRead_goes (known : setHas s.control.roster sender = true) (goes : goesAtLeave sender s = true) :
    leaveRead sender s = testDrain { orphanPeer sender s with
      control.roster := setRemove (orphanPeer sender s).control.roster sender } := by
  unfold leaveRead
  rw [known, goes]
  rfl

theorem goesAtLeave_own (own : sender = s.control.number) : goesAtLeave sender s = true ↔
    s.control.state = .joining ∧ s.control.joinCandidate = some false := by
  unfold goesAtLeave
  rw [own]
  simp

end

/-- A peer's claims orphaned, and then the roster changed: what is left, whatever the roster becomes (R52, R57). -/
theorem orphan_thenRoster (lists : s.ListsSound) (roster : StationSet → StationSet) {t : State}
    (after : t = testDrain { orphan sender s with control := { s.control with roster := roster s.control.roster } }) :
    t.port = s.port ∧ t.bus = s.bus ∧
    t.control = drainTested { s with control := { s.control with roster := roster s.control.roster } } t ∧
    OnlyTickets { s with control := t.control } t ∧
    (∀ r ∈ t.offer.records, ∀ timer, r.state ≠ .outstanding sender timer) ∧
    EndedInListOrder (fun r res => (∃ timer, r.state = .outstanding sender timer) ∧
      (classOf s r.cls).reofferLimit ≤ r.generation.toNat ∧ res = .lapsed r.attempts) s t ∧
    ∀ r ∈ s.offer.records,
      ((∀ timer, r.state ≠ .outstanding sender timer) → r ∈ t.offer.records) ∧
      ((∃ timer, r.state = .outstanding sender timer) →
        (r.generation.toNat < (classOf s r.cls).reofferLimit →
          { r with generation := r.generation + 1, attempts := 0, state := .waiting } ∈ t.offer.records) ∧
        ((classOf s r.cls).reofferLimit ≤ r.generation.toNat → EndedIn r (.lapsed r.attempts) s t)) := by
  obtain ⟨port, bus, control, tickets⟩ := controlChanged_tested (onlyTickets_orphan sender s)
    { s.control with roster := roster s.control.roster }
  rw [← after] at port bus control tickets
  have offer : t.offer = (orphan sender s).offer := by rw [after, testDrain_offer]
  have reports : t.reports = (orphan sender s).reports := by rw [after, testDrain_reports]
  refine ⟨port, bus, control, tickets, ?_⟩
  unfold EndedInListOrder TakenBefore EndedIn
  rw [offer, reports]
  exact orphan_records lists

/-- Settles O41: the cases of `leaveRead`, and for a peer that leaves what orphaning does. -/
theorem leaveReceivedOrphans : Obligations.LeaveReceivedOrphans := by
  intro sender s run answered
  refine ⟨fun receiving station absent => ?_, fun receiving station own => ⟨fun stays => ?_, fun joining candidate => ?_⟩,
    fun receiving station known other lists => ?_⟩
  all_goals rw [leaveReceived_effect run receiving station]
  · exact congrArg _ (leaveRead_absent (s := { s with bus := answered }) absent)
  · refine congrArg _ (leaveRead_stays (s := { s with bus := answered }) ?_)
    rw [← Bool.not_eq_true, goesAtLeave_own (s := { s with bus := answered }) own]
    exact fun both => stays.elim (· both.1) (· both.2)
  · cases known : setHas s.control.roster sender with
    | false =>
      refine congrArg _ ((leaveRead_absent (s := { s with bus := answered }) known).trans ?_)
      rw [setRemove_absent known]
    | true =>
      have goes := (goesAtLeave_own (s := { s with bus := answered }) own).2 ⟨joining, candidate⟩
      refine congrArg _ ((leaveRead_goes (s := { s with bus := answered }) known goes).trans ?_)
      rw [orphanPeer_other (s := { s with bus := answered }) (.inr own)]
      exact testDrain_elsewhere (by rw [show _ = StationState.joining from joining]; nofun)
  · set s₁ : State := { s with bus := answered }
    have goes : goesAtLeave sender s₁ = true := by
      have apart : sender ≠ s₁.control.number := other
      unfold goesAtLeave
      simp [apart]
    have only := onlyTickets_orphan sender s₁
    have left : leaveRead sender s₁ = testDrain { orphan sender s₁ with
        control := { s.control with roster := setRemove s.control.roster sender } } := by
      rw [leaveRead_goes (s := s₁) known goes, orphanPeer_known (s := s₁) known other]
      exact congrArg (fun c : StationControl =>
        testDrain { orphan sender s₁ with control := { c with roster := setRemove c.roster sender } }) only.control
    obtain ⟨port, bus, control, tickets, records⟩ := orphan_thenRoster (s := s₁) lists (setRemove · sender) left
    refine ⟨_, rfl, port, bus, control, ?_, by rw [bus]; exact tickets, records⟩
    rw [control]
    unfold drainTested
    split <;> exact setHas_setRemove_self _ _

/-! ### JOIN (R52) -/

section
variable {s : State} {sender : StationNumber} {resumed : Bool}

theorem joinReceived_effect (clash : Bool) (run : s.held = false) (receiving : s.receiving = true) (known : sender ≠ 15) :
    exec (.joinReceived sender resumed clash) s =
      .next (joinRead sender resumed clash { s with bus.answer := .none }) := by
  have here : effect (.joinReceived sender resumed clash) s = joinRead sender resumed clash (setAnswer .none s) :=
    fromStation_received receiving known fun s => joinRead sender resumed clash (setAnswer .none s)
  rw [exec_of_run run, here]
  rfl

theorem joinRead_own (own : sender = s.control.number) (outside : s.control.state = .joining ∨ s.control.state = .muted) :
    joinRead sender resumed false s = enterFaultClash s := by
  unfold joinRead
  rw [if_neg Bool.false_ne_true, if_pos ⟨own, outside⟩]

section
variable (notOwn : ¬ (sender = s.control.number ∧ (s.control.state = .joining ∨ s.control.state = .muted)))
include notOwn

theorem joinRead_resumed : joinRead sender true false s = addToRoster sender s := by
  unfold joinRead
  rw [if_neg Bool.false_ne_true, if_neg notOwn]
  rfl

theorem joinRead_fresh : joinRead sender false false s = testDrain (addToRoster sender (orphanPeer sender s)) := by
  unfold joinRead
  rw [if_neg Bool.false_ne_true, if_neg notOwn]
  rfl

end

end

/-- Entry to FAULT(CLASH) empties the collections and the roster, and keeps the counters (R51, R64, R75). -/
theorem enterFaultClash_empties (s : State) :
    (enterFaultClash s).control = { s.control with
      state := .faultClash, roster := 0, joinCandidate := none, mutedResumed := false, stateChanged := true } ∧
    (enterFaultClash s).bus = { s.bus with
      synchronised := false, position := none, recessiveRun := 0, ownFrame := none, answer := .none } ∧
    (enterFaultClash s).offer = { s.offer with records := [] } ∧ (enterFaultClash s).work.inbound = [] ∧
    (∀ i, (enterFaultClash s).work.slots.get i = none) ∧
    (enterFaultClash s).work.noticeCounter = s.work.noticeCounter ∧
    (∀ l, entryAt (enterFaultClash s) l = { entryAt s l with state := .quiet, hold := false }) ∧
    (enterFaultClash s).claim = { s.claim with offerInHand := none } ∧ (enterFaultClash s).reports = s.reports ∧
    (enterFaultClash s).port = s.port :=
  ⟨rfl, rfl, rfl, rfl, fun i => vector_get_replicate 8 i none, rfl,
    fun l => vector_get_map s.sources l _, rfl, rfl, rfl⟩

/-- Settles O40: the cases of `joinRead`, and for a peer that has lost its work what orphaning does. -/
theorem joinReceivedCaseByCase : Obligations.JoinReceivedCaseByCase := by
  intro sender resumed clash s run receiving station
  rw [joinReceived_effect clash run receiving station]
  set s₁ : State := { s with bus.answer := .none }
  refine ⟨?_, ?_, ?_⟩
  · rintro rfl
    rfl
  · rintro rfl own outside
    rw [joinRead_own (s := s₁) own outside]
    exact ⟨_, rfl, enterFaultClash_empties s₁⟩
  · rintro rfl notOwn
    refine ⟨?_, ?_, ?_⟩
    · rintro rfl
      exact congrArg _ (joinRead_resumed (s := s₁) notOwn)
    · rintro rfl unknown sound
      rw [joinRead_fresh (s := s₁) notOwn, orphanPeer_other (s := s₁) unknown]
      exact congrArg _ (testDrain_sound (s := addToRoster sender s₁) sound)
    · rintro rfl known other lists
      rw [joinRead_fresh (s := s₁) notOwn, orphanPeer_known (s := s₁) known other]
      have only := onlyTickets_orphan sender s₁
      have joined : testDrain (addToRoster sender (orphan sender s₁)) = testDrain { orphan sender s₁ with
          control := { s.control with roster := setAdd s.control.roster sender } } :=
        congrArg (fun c : StationControl =>
          testDrain { orphan sender s₁ with control := { c with roster := setAdd c.roster sender } }) only.control
      obtain ⟨port, bus, control, tickets, records⟩ := orphan_thenRoster (s := s₁) lists (setAdd · sender) joined
      exact ⟨_, rfl, port, bus, control, by rw [bus]; exact tickets, records⟩

end Sys2Proof.Machine
end

section
/-! PROOFS. FRAME_START's choice among the WAITING records (R39, R40, R83, R88): their order, the ones that fail the NO-PEER test,
and the first that passes it. -/

namespace Sys2Proof.Machine

/-! ### A list put in order by a key (R40, R157) -/

section
variable {α : Type} (key : α → Nat)

/-- `a` stands before `b` in the order by a key that keeps the order of a list among equals. -/
def StandsBefore (l : List α) (a b : α) : Prop := key a < key b ∨ (key a = key b ∧ [a, b].Sublist l)

variable {key}

theorem StandsBefore.mono {l l' : List α} {a b : α} (h : StandsBefore key l a b) (sub : l.Sublist l') :
    StandsBefore key l' a b := h.imp_right fun ⟨same, order⟩ => ⟨same, order.trans sub⟩

theorem insertBy_perm (a : α) (l : List α) : (insertBy key a l).Perm (a :: l) := by
  induction l with
  | nil => exact .refl _
  | cons b l ih =>
    unfold insertBy
    split
    case isTrue => exact .refl _
    case isFalse => exact (ih.cons b).trans (.swap a b l)

theorem insertBy_ordered {r : α → α → Prop} {a : α} {l : List α} (ordered : l.Pairwise r)
    (after : ∀ b ∈ l, key a < key b → r a b) (before : ∀ b ∈ l, key b ≤ key a → r b a)
    (ascending : l.Pairwise fun b c => key b ≤ key c) : (insertBy key a l).Pairwise r := by
  induction l with
  | nil => exact List.pairwise_singleton r a
  | cons b l ih =>
    obtain ⟨least, ascending⟩ := List.pairwise_cons.1 ascending
    unfold insertBy
    split
    case isTrue less =>
      refine List.pairwise_cons.2 ⟨fun c mem => ?_, ordered⟩
      rcases List.mem_cons.1 mem with rfl | later
      · exact after c mem less
      · exact after c mem (less.trans_le (least c later))
    case isFalse notLess =>
      obtain ⟨first, rest⟩ := List.pairwise_cons.1 ordered
      refine List.pairwise_cons.2 ⟨fun c mem => ?_, ih rest (fun c later => after c (List.mem_cons_of_mem b later))
        (fun c later => before c (List.mem_cons_of_mem b later)) ascending⟩
      rcases List.mem_cons.1 ((insertBy_perm a l).mem_iff.1 mem) with rfl | later
      · exact before b List.mem_cons_self (not_lt.1 notLess)
      · exact first c later

theorem orderBy_concat (l : List α) (a : α) : orderBy key (l ++ [a]) = insertBy key a (orderBy key l) := List.foldl_concat ..

theorem orderBy_perm (l : List α) : (orderBy key l).Perm l := by
  induction l using List.reverseRecOn with
  | nil => exact .refl _
  | append_singleton l a ih =>
    rw [orderBy_concat]
    exact ((insertBy_perm a _).trans (ih.cons a)).trans (List.perm_append_singleton a l).symm

/-- Least key first, and among equals in the order of the list. -/
theorem orderBy_ordered (l : List α) : (orderBy key l).Pairwise (StandsBefore key l) := by
  induction l using List.reverseRecOn with
  | nil => exact .nil
  | append_singleton l a ih =>
    rw [orderBy_concat]
    have ascending : (orderBy key l).Pairwise fun b c => key b ≤ key c := ih.imp fun before => before.elim le_of_lt (·.1.le)
    refine insertBy_ordered (ih.imp (StandsBefore.mono · (List.sublist_append_left l [a]))) (fun b _ less => .inl less)
      (fun b mem le => ?_) ascending
    rcases Nat.lt_or_eq_of_le le with less | same
    · exact .inl less
    · have held : b ∈ l := (orderBy_perm l).mem_iff.1 mem
      exact .inr ⟨same, (List.singleton_sublist.2 held).append (List.Sublist.refl [a])⟩

/-- In a list without repetition no two items stand before each other. -/
theorem StandsBefore.asymm {l : List α} {a b : α} (nodup : l.Nodup) (h : StandsBefore key l a b) : ¬ StandsBefore key l b a := by
  intro k
  rcases h with less | ⟨same, order⟩
  · rcases k with less' | ⟨same', -⟩
    · omega
    · omega
  · rcases k with less' | ⟨-, order'⟩
    · omega
    · obtain ⟨front, back, rfl, inFront, inBack⟩ := List.cons_sublist_iff.1 order
      obtain ⟨front', back', parts, sub, sub'⟩ := List.sublist_append_iff.1 order'
      have apart := List.disjoint_of_nodup_append nodup
      have last : back' = [] := by
        rcases List.eq_nil_or_concat back' with none | ⟨init, c, rfl⟩
        · exact none
        · have ends : [b] ++ [a] = (front' ++ init) ++ [c] := parts.trans (by simp)
          obtain rfl : a = c := List.singleton_inj.1 (List.append_inj_right' ends rfl)
          exact absurd (sub'.subset (by simp)) (apart inFront)
      subst last
      rw [List.append_nil] at parts
      exact apart (sub.subset (parts ▸ List.mem_cons_self)) (List.singleton_sublist.1 inBack)

end

/-! ### The choice (R39, R88) -/

section
variable {s : State}

/-- The WAITING records, in the order of R40. -/
def waitingRecords (s : State) : List OutRecord :=
  orderBy (fun r => r.level.toNat) (s.offer.records.filter fun r => r.state == .waiting)

theorem waitingOffers_eq (s : State) : waitingOffers s = (waitingRecords s).map (·.tag) := rfl

theorem mem_waitingRecords {r : OutRecord} : r ∈ waitingRecords s ↔ r ∈ s.offer.records ∧ r.state = .waiting := by
  unfold waitingRecords
  rw [(orderBy_perm _).mem_iff, List.mem_filter, beq_iff_eq]

theorem waitingRecords_nodup (lists : s.ListsSound) : ((waitingRecords s).map (·.tag)).Nodup :=
  ((orderBy_perm _).map _).nodup_iff.2 (filter_nodup lists)

theorem waitingRecords_ordered :
    (waitingRecords s).Pairwise (StandsBefore (fun r => r.level.toNat) s.offer.records) := by
  unfold waitingRecords
  exact (orderBy_ordered _).imp fun before => before.mono List.filter_sublist

/-- The NO-PEER test failed (R83). -/
def endNoPeer (r : OutRecord) (s : State) : State := resolveRecord r .noPeer s

theorem chooseOffer_nil : chooseOffer [] s = s := by unfold chooseOffer; rfl

theorem chooseOffer_fails {r : OutRecord} {rest : List Tag} (mem : r ∈ s.offer.records) (lists : s.ListsSound)
    (waiting : r.state = .waiting) (fails : setsMeet r.dest s.control.roster = false) :
    chooseOffer (r.tag :: rest) s = chooseOffer rest (endNoPeer r s) := by
  conv_lhs => unfold chooseOffer
  rw [findRecord_of_mem lists.tags.2 mem]
  simp only
  rw [if_pos waiting, fails]
  rfl

theorem chooseOffer_passes {r : OutRecord} {rest : List Tag} (mem : r ∈ s.offer.records) (lists : s.ListsSound)
    (waiting : r.state = .waiting) (passes : setsMeet r.dest s.control.roster = true) :
    chooseOffer (r.tag :: rest) s =
      startFrame (.offer r.tag) (.offer (offerFields s r)) (putRecord { r with state := .offering false } s) := by
  conv_lhs => unfold chooseOffer
  rw [findRecord_of_mem lists.tags.2 mem]
  simp only
  rw [if_pos waiting, if_pos passes]

/-- The records ahead of the choice are ended one by one. -/
theorem chooseOffer_skips {failing : List OutRecord} (rest : List Tag) (lists : s.ListsSound)
    (inList : ∀ r ∈ failing, r ∈ s.offer.records) (nodup : (failing.map (·.tag)).Nodup)
    (waiting : ∀ r ∈ failing, r.state = .waiting) (fails : ∀ r ∈ failing, setsMeet r.dest s.control.roster = false) :
    chooseOffer (failing.map (·.tag) ++ rest) s = chooseOffer rest (forRecords (failing.map (·.tag)) endNoPeer s) := by
  induction failing generalizing s with
  | nil => rfl
  | cons r failing ih =>
    have mem := inList r List.mem_cons_self
    obtain ⟨fresh, nodup⟩ := List.nodup_cons.1 nodup
    have one : Touches (· = r) s (endNoPeer r s) := resolve_touches .noPeer mem lists
    rw [List.map_cons, List.cons_append, forRecords_cons _ mem lists,
      chooseOffer_fails mem lists (waiting r List.mem_cons_self) (fails r List.mem_cons_self)]
    refine ih (one.lists lists) (fun x later => one.kept x (inList x (List.mem_cons_of_mem _ later)) ?_) nodup
      (fun x later => waiting x (List.mem_cons_of_mem _ later)) fun x later => ?_
    · rintro rfl
      exact fresh (List.mem_map_of_mem later)
    · rw [one.control]
      exact fails x (List.mem_cons_of_mem _ later)

end

/-! ### What the choice comes to (R39, R88) -/

section
variable {s : State}

/-- Either every WAITING record fails the test, or one is the first to pass it. -/
theorem waitingRecords_choice (s : State) :
    (∀ r ∈ waitingRecords s, setsMeet r.dest s.control.roster = false) ∨
    ∃ failing r rest, waitingRecords s = failing ++ r :: rest ∧ setsMeet r.dest s.control.roster = true ∧
      ∀ x ∈ failing, setsMeet x.dest s.control.roster = false := by
  cases found : (waitingRecords s).find? fun r => setsMeet r.dest s.control.roster with
  | none => exact .inl fun r mem => by simpa using List.find?_eq_none.1 found r mem
  | some r =>
    obtain ⟨passes, failing, rest, split, fails⟩ := List.find?_eq_some_iff_append.1 found
    exact .inr ⟨failing, r, rest, split, passes, fun x mem => by simpa using fails x mem⟩

theorem failing_inList {failing : List OutRecord} (isPart : failing.Sublist (waitingRecords s)) :
    ∀ r ∈ failing, r ∈ s.offer.records := fun _ mem => (mem_waitingRecords.1 (isPart.subset mem)).1

section
variable {failing : List OutRecord} (lists : s.ListsSound) (isPart : failing.Sublist (waitingRecords s))
include lists isPart

theorem failing_nodup : (failing.map (·.tag)).Nodup := (waitingRecords_nodup lists).sublist (isPart.map _)

theorem endNoPeer_touches : Touches (· ∈ failing) s (forRecords (failing.map (·.tag)) endNoPeer s) :=
  forRecords_touches (resolve_touches .noPeer) (failing_inList isPart) (failing_nodup lists isPart) lists

theorem endNoPeer_ended {r : OutRecord} (mem : r ∈ failing) :
    Ended r .noPeer s (forRecords (failing.map (·.tag)) endNoPeer s) :=
  forRecords_ended (resolve_touches .noPeer) mem (failing_inList isPart) (failing_nodup lists isPart) lists
    fun _ _ => rfl

theorem chooseOffer_failing (rest : List Tag) (fails : ∀ r ∈ failing, setsMeet r.dest s.control.roster = false) :
    chooseOffer (failing.map (·.tag) ++ rest) s = chooseOffer rest (forRecords (failing.map (·.tag)) endNoPeer s) :=
  chooseOffer_skips rest lists (failing_inList isPart) (failing_nodup lists isPart)
    (fun _ mem => (mem_waitingRecords.1 (isPart.subset mem)).2) fails

end

theorem onlyTickets_endNoPeer (tags : List Tag) (s : State) : OnlyTickets s (forRecords tags endNoPeer s) :=
  onlyTickets_forRecords tags endNoPeer (fun r s => onlyTickets_resolveRecord r .noPeer s) s

/-- With every WAITING record failing the test, no frame starts. -/
theorem chooseOffer_none (lists : s.ListsSound) (fails : ∀ r ∈ waitingRecords s, setsMeet r.dest s.control.roster = false) :
    chooseOffer (waitingOffers s) s = forRecords (waitingOffers s) endNoPeer s := by
  have skipped := chooseOffer_failing lists (List.Sublist.refl _) [] fails
  rw [List.append_nil, chooseOffer_nil] at skipped
  exact skipped

/-- The first that passes becomes the frame. -/
theorem chooseOffer_first {failing rest : List OutRecord} {r : OutRecord} (lists : s.ListsSound)
    (split : waitingRecords s = failing ++ r :: rest) (passes : setsMeet r.dest s.control.roster = true)
    (fails : ∀ x ∈ failing, setsMeet x.dest s.control.roster = false) :
    chooseOffer (waitingOffers s) s = startFrame (.offer r.tag) (.offer (offerFields s r))
        (putRecord { r with state := .offering false } (forRecords (failing.map (·.tag)) endNoPeer s)) ∧
      r ∈ (forRecords (failing.map (·.tag)) endNoPeer s).offer.records := by
  have isPart : failing.Sublist (waitingRecords s) := split ▸ List.sublist_append_left failing (r :: rest)
  have touches := endNoPeer_touches lists isPart
  obtain ⟨held, waiting⟩ := mem_waitingRecords.1 (split ▸ List.mem_append_right failing List.mem_cons_self : r ∈ waitingRecords s)
  have nodup := waitingRecords_nodup lists
  rw [split, List.map_append, List.nodup_append] at nodup
  obtain ⟨-, -, apart⟩ := nodup
  have mem := touches.kept r held fun earlier =>
    apart _ (List.mem_map_of_mem earlier) _ (List.mem_map_of_mem List.mem_cons_self) rfl
  refine ⟨?_, mem⟩
  rw [waitingOffers_eq, split, List.map_append, chooseOffer_failing lists isPart _ fails, List.map_cons,
    chooseOffer_passes mem (touches.lists lists) waiting (by rw [touches.control]; exact passes)]
  unfold offerFields
  rw [touches.control]

/-- The bus unit changed after the tickets, and the drain tested. -/
theorem busChanged_tested {t : State} (only : OnlyTickets s t) (b : BusUnit) :
    (testDrain { t with bus := b }).bus = b ∧ (testDrain { t with bus := b }).control = drainTested s (testDrain { t with bus := b }) ∧
      OnlyTickets { s with bus := b, control := (testDrain { t with bus := b }).control } (testDrain { t with bus := b }) := by
  have beside : OnlyTickets { s with bus := b } { t with bus := b } :=
    ⟨rfl, only.control, only.claim, only.work, only.port, only.held, only.pending, only.inputs, only.freeDrawn, only.tickCount,
      only.masks, only.reports, only.numbers⟩
  obtain ⟨-, control, tickets⟩ := beside.testDrain
  exact ⟨tickets.bus, control, tickets⟩

end

/-- Of two WAITING records one stands before the other in the order of the choice. -/
theorem waitingRecords_before {failing rest : List OutRecord} {r : OutRecord} {s : State}
    (split : waitingRecords s = failing ++ r :: rest) :
    (∀ x ∈ failing, StandsBefore (fun r => r.level.toNat) s.offer.records x r) ∧
      ∀ x ∈ rest, StandsBefore (fun r => r.level.toNat) s.offer.records r x := by
  have ordered := waitingRecords_ordered (s := s)
  rw [split, List.pairwise_append] at ordered
  obtain ⟨-, ordered, across⟩ := ordered
  exact ⟨fun x mem => across x mem r List.mem_cons_self, (List.pairwise_cons.1 ordered).1⟩

/-- The frame of the record that passed first. -/
def offerFrame (r : OutRecord) (s : State) : OwnFrame :=
  { candidate := .offer r.tag, frame := .offer (offerFields s r), status := .transmitting }

/-- What has become of the records once the first that passed is in the frame. -/
theorem chosen_records {s : State} {failing rest : List OutRecord} {r : OutRecord} (lists : s.ListsSound)
    (split : waitingRecords s = failing ++ r :: rest)
    (mem : r ∈ (forRecords (failing.map (·.tag)) endNoPeer s).offer.records) {v : State}
    (put : v = putRecord { r with state := .offering false } (forRecords (failing.map (·.tag)) endNoPeer s)) :
    { r with state := .offering false } ∈ v.offer.records ∧ (∀ x ∈ failing, Ended x .noPeer s v) ∧
      ∀ x ∈ rest, x ∈ v.offer.records := by
  have isPart : failing.Sublist (waitingRecords s) := split ▸ List.sublist_append_left failing (r :: rest)
  have touches := endNoPeer_touches lists isPart
  have waiting : r.state = .waiting := (mem_waitingRecords.1 (split ▸ List.mem_append_right failing List.mem_cons_self)).2
  have nodup := waitingRecords_nodup lists
  rw [split, List.map_append, List.nodup_append] at nodup
  obtain ⟨-, nodup, apart⟩ := nodup
  obtain ⟨fresh, -⟩ := List.nodup_cons.1 nodup
  have putting : Touches (· = r) (forRecords (failing.map (·.tag)) endNoPeer s) v :=
    put ▸ putRecord_touches (putRecord_moves mem (by rw [waiting]; rfl) (.offering false)) mem rfl (touches.lists lists)
  refine ⟨?_, fun x earlier => ?_, fun x later => ?_⟩
  · rw [put]
    exact List.mem_map.2 ⟨r, mem, if_pos (beq_self_eq_true _)⟩
  · refine (endNoPeer_ended lists isPart earlier).after touches.control putting ?_
    rintro _ rfl same
    exact apart _ (List.mem_map_of_mem earlier) _ (List.mem_map_of_mem List.mem_cons_self) same.symm
  · have held : x ∈ s.offer.records :=
      (mem_waitingRecords.1 (split ▸ List.mem_append_right failing (List.mem_cons_of_mem r later))).1
    refine putting.kept x (touches.kept x held fun earlier => ?_) ?_
    · exact apart _ (List.mem_map_of_mem earlier) _ (List.mem_map_of_mem (List.mem_cons_of_mem r later)) rfl
    · rintro rfl
      exact fresh (List.mem_map_of_mem later)

/-- Settles O43: the WAITING records in their order, those that fail ended one by one, and the first that passes put in the
frame. -/
theorem frameStartOffersFirstWithPeer : Obligations.FrameStartOffersFirstWithPeer := by
  intro s run state synchronised noFrame between absent noNotice lists ahead endedNoPeer
  set s₁ : State := { s with claim.offerInHand := none }
  have free : freeToStart s = true := freeToStart_iff.2 ⟨sends_of_answering state, synchronised, noFrame, between⟩
  have joined : s₁.control.state ≠ .joining := by
    rcases state with online | draining
    · exact fun joining => nomatch online.symm.trans joining
    · exact fun joining => nomatch draining.symm.trans joining
  have noOldest : oldestNotice s₁ = none := by
    have noCandidate : candidateNotices s₁ = [] := by
      refine List.eq_nil_iff_forall_not_mem.2 fun n mem => ?_
      obtain ⟨held, unresolved, other⟩ := mem_candidateNotices.1 mem
      exact (noNotice n held).elim (· unresolved) other
    rw [oldestNotice, noCandidate]
    rfl
  have starts : exec .frameStart s = .next (testDrain (chooseOffer (waitingOffers s₁) s₁)) := by
    rw [exec_of_run run, effect_frameStart free, chooseFrame_offers joined absent noOldest]
  rw [starts]
  rcases waitingRecords_choice s₁ with fails | ⟨failing, r, rest, split, passes, fails⟩
  · rw [chooseOffer_none (s := s₁) lists fails]
    obtain ⟨-, control, tickets⟩ := (onlyTickets_endNoPeer (waitingOffers s₁) s₁).testDrain
    refine ⟨_, rfl, control, by rw [tickets.bus]; exact tickets, fun _ => ⟨tickets.bus, fun r mem waiting => ?_⟩,
      fun r mem waiting meets => ?_⟩
    · have ended := (endNoPeer_ended (s := s₁) lists (List.Sublist.refl _) (mem_waitingRecords.2 ⟨mem, waiting⟩)).endedIn
      change EndedIn r .noPeer s₁ _
      unfold EndedIn
      rw [testDrain_offer, testDrain_reports]
      exact ended
    · exact nomatch meets.symm.trans (fails r (mem_waitingRecords.2 ⟨mem, waiting⟩))
  · obtain ⟨chosen, mem⟩ := chooseOffer_first (s := s₁) lists split passes fails
    set u := forRecords (failing.map (·.tag)) endNoPeer s₁
    set v := putRecord { r with state := .offering false } u with put
    have only : OnlyTickets s₁ v := (onlyTickets_endNoPeer _ s₁).trans (onlyTickets_putRecord _ u)
    set b : BusUnit := { s.bus with ownFrame := some (offerFrame r s), position := some [], answer := .none }
    have started : chooseOffer (waitingOffers s₁) s₁ = { v with bus := b } := chosen.trans
      (congrArg (fun bus : BusUnit => { v with bus := { bus with
        ownFrame := some (offerFrame r s), position := some [], answer := .none } }) only.bus)
    obtain ⟨bus, control, tickets⟩ := busChanged_tested only b
    obtain ⟨offering, ended, kept⟩ := chosen_records (s := s₁) lists split mem put
    obtain ⟨before, after⟩ := waitingRecords_before split
    have inList : r ∈ waitingRecords s₁ := split ▸ List.mem_append_right failing List.mem_cons_self
    obtain ⟨held, waiting⟩ := mem_waitingRecords.1 inList
    have nodup : s.offer.records.Nodup := lists.tags.2.of_map
    have ahead_iff (x y : OutRecord) : ahead x y ↔ StandsBefore (fun r => r.level.toNat) s₁.offer.records x y :=
      or_congr_right (and_congr_left' BitVec.toNat_inj.symm)
    rw [started]
    refine ⟨_, rfl, control, by rw [bus]; exact tickets, fun none => ?_, fun x memX waitingX meets noneAhead => ?_⟩
    · exact nomatch passes.symm.trans (none r held waiting)
    · have place : x ∈ failing ++ r :: rest := split ▸ mem_waitingRecords.2 ⟨memX, waitingX⟩
      obtain rfl : r = x := by
        rcases List.mem_append.1 place with earlier | now
        · exact nomatch meets.symm.trans (fails x earlier)
        · rcases List.mem_cons.1 now with rfl | later
          · rfl
          · exact nomatch passes.symm.trans (noneAhead r held waiting ((ahead_iff r x).2 (after x later)))
      have where_ (y : OutRecord) (memY : y ∈ s.offer.records) (waitingY : y.state = .waiting) : y ∈ failing ++ r :: rest :=
        split ▸ mem_waitingRecords.2 ⟨memY, waitingY⟩
      refine ⟨bus, ?_, fun y memY waitingY first => ?_, fun y memY waitingY notFirst other => ?_⟩
      · rw [testDrain_offer]
        exact offering
      · have standsFirst := (ahead_iff y r).1 first
        have earlier : y ∈ failing := by
          rcases List.mem_append.1 (where_ y memY waitingY) with earlier | now
          · exact earlier
          · rcases List.mem_cons.1 now with rfl | later
            · exact absurd standsFirst (standsFirst.asymm nodup)
            · exact absurd standsFirst ((after y later).asymm nodup)
        have gone := (ended y earlier).endedIn
        change EndedIn y .noPeer s₁ _
        unfold EndedIn
        rw [testDrain_offer, testDrain_reports]
        exact gone
      · rw [testDrain_offer]
        rcases List.mem_append.1 (where_ y memY waitingY) with earlier | now
        · exact absurd ((ahead_iff y r).2 (before y earlier)) notFirst
        · exact kept y ((List.mem_cons.1 now).resolve_left other)

end Sys2Proof.Machine
end

section
/-! PROOFS. The station's own notices handed one after another (R106, R157): what handing touches in the work unit and in the
outbound list, and what becomes of each notice and of the record it matches. -/

namespace Sys2Proof.Machine

/-! ### Which copies are touched -/

/-- From `s` to `t` no copy but the touched ones has been changed or has gone, and none has been added. -/
structure CopiesTouched (touched : CopyRef → Prop) (s t : State) : Prop where
  counter : t.work.noticeCounter = s.work.noticeCounter
  slots : ∀ i, ¬ touched (.slot i) → t.work.slots.get i = s.work.slots.get i
  empty : ∀ i, s.work.slots.get i = none → t.work.slots.get i = none
  kept : ∀ x ∈ s.work.inbound, ¬ touched (.inbound x.originator x.tag) → x ∈ t.work.inbound
  made : ∀ x ∈ t.work.inbound, ¬ touched (.inbound x.originator x.tag) → x ∈ s.work.inbound
  waiting : ∀ x ∈ t.work.inbound, x.state = .waiting → x ∈ s.work.inbound
  bases : (t.work.inbound.map InRecord.base).Sublist (s.work.inbound.map InRecord.base)
  sound : s.WorkSound → t.WorkSound

section
variable {s t u : State} {touched touched' : CopyRef → Prop}

theorem CopiesTouched.of_work (work : t.work = s.work) (claim : t.claim = s.claim) : CopiesTouched touched s t where
  counter := by rw [work]
  slots := fun _ _ => by rw [work]
  empty := fun _ none => by rw [work]; exact none
  kept := fun _ mem _ => by rw [work]; exact mem
  made := fun _ mem _ => by rw [← work]; exact mem
  waiting := fun _ mem _ => by rw [← work]; exact mem
  bases := by rw [work]
  sound := fun sound => sound.of_eq work claim

theorem CopiesTouched.trans (h : CopiesTouched touched s t) (k : CopiesTouched touched' t u) :
    CopiesTouched (fun ref => touched ref ∨ touched' ref) s u where
  counter := k.counter.trans h.counter
  slots := fun i apart => (k.slots i fun own => apart (.inr own)).trans (h.slots i fun own => apart (.inl own))
  empty := fun i none => k.empty i (h.empty i none)
  kept := fun x mem apart => k.kept x (h.kept x mem fun own => apart (.inl own)) fun own => apart (.inr own)
  made := fun x mem apart => h.made x (k.made x mem fun own => apart (.inr own)) fun own => apart (.inl own)
  waiting := fun x mem state => h.waiting x (k.waiting x mem state) state
  bases := k.bases.trans h.bases
  sound := fun sound => k.sound (h.sound sound)

theorem CopiesTouched.mono (h : CopiesTouched touched s t) (more : ∀ ref, touched ref → touched' ref) :
    CopiesTouched touched' s t where
  counter := h.counter
  slots := fun i apart => h.slots i fun own => apart (more _ own)
  empty := h.empty
  kept := fun x mem apart => h.kept x mem fun own => apart (more _ own)
  made := fun x mem apart => h.made x mem fun own => apart (more _ own)
  waiting := h.waiting
  bases := h.bases
  sound := h.sound

end

theorem CopiesTouched.tickets {s t : State} {touched : CopyRef → Prop} (h : CopiesTouched touched s t) :
    (t.work.inbound.map fun r => (r.originator, r.tag)).Sublist (s.work.inbound.map fun r => (r.originator, r.tag)) :=
  base_sublist_ticket h.bases

/-! ### One copy freed, or its notice written back -/

section
variable {s : State}

theorem isCopy_ref {o : StationNumber} {tag : Tag} {x : InRecord} :
    isCopy o tag x = true ↔ CopyRef.inbound x.originator x.tag = .inbound o tag := by
  unfold isCopy
  simp

theorem freeCopy_touches (ref : CopyRef) (s : State) : CopiesTouched (· = ref) s (freeCopy ref s) := by
  cases ref with
  | slot i =>
    exact {
      counter := rfl
      slots := fun j apart => (vector_get_set ..).trans (if_neg fun same => apart (congrArg CopyRef.slot same.symm))
      empty := fun j none => by
        refine (vector_get_set ..).trans ?_
        split
        case isTrue => rfl
        case isFalse => exact none
      kept := fun _ mem _ => mem
      made := fun _ mem _ => mem
      waiting := fun _ mem _ => mem
      bases := List.Sublist.refl _
      sound := freeCopy_workSound (.slot i) }
  | inbound o tag =>
    exact {
      counter := rfl
      slots := fun _ _ => rfl
      empty := fun _ none => none
      kept := fun x mem apart => List.mem_filter.2 ⟨mem, by rw [Bool.not_eq_true', ← Bool.not_eq_true, isCopy_ref]; exact apart⟩
      made := fun x mem _ => (List.mem_filter.1 mem).1
      waiting := fun x mem _ => (List.mem_filter.1 mem).1
      bases := List.filter_sublist.map _
      sound := freeCopy_workSound (.inbound o tag) }

theorem writeNotice_touches (n : HeldNotice) (s : State) : CopiesTouched (· = n.ref) s (writeNotice n s) := by
  have sound := writeNotice_workSound n (s := s)
  unfold writeNotice at sound ⊢
  cases ref : n.ref with
  | slot i =>
    rw [ref] at sound
    simp only at sound ⊢
    cases held : s.work.slots.get i with
    | none => exact .of_work rfl rfl
    | some e =>
      rw [held] at sound
      exact {
        counter := rfl
        slots := fun j apart => (vector_get_set ..).trans (if_neg fun same => apart (congrArg CopyRef.slot same.symm))
        empty := fun j none => by
          refine (vector_get_set ..).trans ?_
          split
          case isTrue same =>
            rw [← same, held] at none
            cases none
          case isFalse => exact none
        kept := fun _ mem _ => mem
        made := fun _ mem _ => mem
        waiting := fun _ mem _ => mem
        bases := List.Sublist.refl _
        sound := sound }
  | inbound o tag =>
    rw [ref] at sound
    exact {
      counter := rfl
      slots := fun _ _ => rfl
      empty := fun _ none => none
      kept := fun x mem apart => List.mem_map.2 ⟨x, mem, if_neg (mt isCopy_ref.1 apart)⟩
      made := fun x mem apart => by
        obtain ⟨y, held, rfl⟩ := List.mem_map.1 mem
        split at apart
        case isTrue own => exact absurd (isCopy_ref.1 own) apart
        case isFalse other =>
          rw [if_neg other]
          exact held
      waiting := fun x mem state => by
        obtain ⟨y, held, rfl⟩ := List.mem_map.1 mem
        split at state
        case isTrue => cases state
        case isFalse other =>
          rw [if_neg other]
          exact held
      bases := by
        change ((s.work.inbound.map _).map _).Sublist _
        rw [map_base_of_states fun x _ => ?_]
        split <;> rfl
      sound := sound }

/-! ### The notices held -/

theorem mem_heldNotices {n : HeldNotice} : n ∈ heldNotices s ↔
    (∃ i e, s.work.slots.get i = some e ∧ slotNotice i e = some n) ∨ ∃ x ∈ s.work.inbound, inboundNotice x = some n := by
  unfold heldNotices
  simp only [List.mem_append, List.mem_filterMap, List.mem_finRange, true_and, Option.bind_eq_some_iff]

theorem slotNotice_ref {i : Fin 8} {e : ServiceEntry} {n : HeldNotice} (is : slotNotice i e = some n) : n.ref = .slot i := by
  unfold slotNotice at is
  split at is
  · cases is
  · cases is; rfl

theorem inboundNotice_ref {x : InRecord} {n : HeldNotice} (is : inboundNotice x = some n) :
    n.ref = .inbound x.originator x.tag := by
  unfold inboundNotice at is
  split at is
  · cases is
  · cases is; rfl

section
variable {t : State} {touched : CopyRef → Prop} {n : HeldNotice}

theorem CopiesTouched.held (h : CopiesTouched touched s t) (mem : n ∈ heldNotices s) (apart : ¬ touched n.ref) :
    n ∈ heldNotices t := by
  rcases mem_heldNotices.1 mem with ⟨i, e, held, is⟩ | ⟨x, held, is⟩
  · rw [slotNotice_ref is] at apart
    exact mem_heldNotices.2 (.inl ⟨i, e, (h.slots i apart).trans held, is⟩)
  · rw [inboundNotice_ref is] at apart
    exact mem_heldNotices.2 (.inr ⟨x, h.kept x held apart, is⟩)

theorem CopiesTouched.heldBefore (h : CopiesTouched touched s t) (mem : n ∈ heldNotices t) (apart : ¬ touched n.ref) :
    n ∈ heldNotices s := by
  rcases mem_heldNotices.1 mem with ⟨i, e, held, is⟩ | ⟨x, held, is⟩
  · rw [slotNotice_ref is] at apart
    exact mem_heldNotices.2 (.inl ⟨i, e, (h.slots i apart).symm.trans held, is⟩)
  · rw [inboundNotice_ref is] at apart
    exact mem_heldNotices.2 (.inr ⟨x, h.made x held apart, is⟩)

end

/-! ### A copy freed -/

/-- The copy is freed (R154). -/
def Freed (ref : CopyRef) (t : State) : Prop :=
  match ref with
  | .slot i => t.work.slots.get i = none
  | .inbound o tag => ∀ x ∈ t.work.inbound, ¬ (x.originator = o ∧ x.tag = tag)

section
variable {t : State} {touched : CopyRef → Prop} {ref : CopyRef}

theorem freeCopy_freed (ref : CopyRef) (s : State) : Freed ref (freeCopy ref s) := by
  cases ref with
  | slot i => exact (vector_get_set ..).trans (if_pos rfl)
  | inbound o tag =>
    rintro x mem ⟨rfl, rfl⟩
    have other := (List.mem_filter.1 mem).2
    simp [isCopy] at other

theorem Freed.after (h : Freed ref s) (k : CopiesTouched touched s t) : Freed ref t := by
  cases ref with
  | slot i => exact k.empty i h
  | inbound o tag =>
    rintro x mem ⟨rfl, rfl⟩
    have ticket : (x.originator, x.tag) ∈ s.work.inbound.map fun r => (r.originator, r.tag) :=
      k.tickets.subset (List.mem_map_of_mem (f := fun r : InRecord => (r.originator, r.tag)) mem)
    obtain ⟨y, held, same⟩ := List.mem_map.1 ticket
    exact h y held (Prod.ext_iff.1 same)

theorem Freed.not_held (h : Freed ref s) {n : HeldNotice} (mem : n ∈ heldNotices s) : n.ref ≠ ref := by
  rintro rfl
  rcases mem_heldNotices.1 mem with ⟨i, e, held, is⟩ | ⟨x, held, is⟩
  · rw [slotNotice_ref is] at h
    exact nomatch h.symm.trans held
  · rw [inboundNotice_ref is] at h
    exact h x held ⟨rfl, rfl⟩

end

theorem writeNotice_held {n : HeldNotice} (mem : n ∈ heldNotices s) (resolution : Option CopyResolution) :
    { n with resolution := resolution } ∈ heldNotices (writeNotice { n with resolution := resolution } s) := by
  rcases mem_heldNotices.1 mem with ⟨i, e, held, is⟩ | ⟨x, held, is⟩
  · unfold slotNotice at is
    split at is
    case h_1 => cases is
    case h_2 kind age attempts resolved _ =>
      cases is
      refine mem_heldNotices.2 (.inl ⟨i, { e with state := .notifying kind age attempts resolution }, ?_, rfl⟩)
      unfold writeNotice
      simp only [held]
      exact (vector_get_set ..).trans (if_pos rfl)
  · unfold inboundNotice at is
    split at is
    case h_1 => cases is
    case h_2 age attempts resolved _ =>
      cases is
      refine mem_heldNotices.2 (.inr ⟨{ x with state := .returning age attempts resolution }, ?_, rfl⟩)
      exact List.mem_map.2 ⟨x, held, if_pos (isCopy_ref.2 rfl)⟩

end

/-! ### One notice handed (R100 to R106, R157, R158) -/

/-- The notice matches the record (R100). -/
def Matches (me : StationNumber) (n : HeldNotice) (r : OutRecord) : Prop :=
  r.tag = n.tag ∧ r.generation = n.generation ∧ ∃ timer, r.state = .outstanding me timer

/-- What the station's own notice has made of the record it matched (R102 to R104). -/
def AnsweredIn (me : StationNumber) (n : HeldNotice) (r : OutRecord) (s t : State) : Prop :=
  (∀ outcome, n.kind = .done outcome → Ended r (.completed outcome me) s t) ∧
  (n.kind = .ret → s.control.state = .draining → Ended r .withdrawn s t) ∧
  (n.kind = .ret → s.control.state = .online → r.attempts + 1 < (classOf s r.cls).attemptLimit →
    { r with attempts := r.attempts + 1, state := .waiting } ∈ t.offer.records) ∧
  (n.kind = .ret → s.control.state = .online → (classOf s r.cls).attemptLimit ≤ r.attempts + 1 →
    Ended { r with attempts := r.attempts + 1 } (.refused (r.attempts + 1)) s t)

section
variable {s t u : State} {me : StationNumber} {n : HeldNotice} {r : OutRecord} {touched : OutRecord → Prop}

theorem Matches.inPlay (own : Matches me n r) : r.state.inPlay = true := by
  obtain ⟨-, -, timer, claimed⟩ := own
  rw [claimed]
  rfl

theorem AnsweredIn.after (h : AnsweredIn me n r s t) (control : t.control = s.control) (k : Touches touched t u)
    (other : ∀ x, touched x → x.tag ≠ r.tag) : AnsweredIn me n r s u := by
  obtain ⟨completed, withdrawn, givenBack, refused⟩ := h
  exact ⟨fun outcome is => (completed outcome is).after control k other,
    fun is state => (withdrawn is state).after control k other,
    fun is state below => k.kept _ (givenBack is state below) fun own => other _ own rfl,
    fun is state limit => (refused is state limit).after control k other⟩

theorem AnsweredIn.before (h : AnsweredIn me n r t u) (k : Touches touched s t) : AnsweredIn me n r s u := by
  obtain ⟨completed, withdrawn, givenBack, refused⟩ := h
  unfold classOf at givenBack refused
  rw [k.control] at withdrawn givenBack refused
  exact ⟨fun outcome is => (completed outcome is).before k, fun is state => (withdrawn is state).before k, givenBack,
    fun is state limit => (refused is state limit).before k⟩

section
variable (mem : r ∈ s.offer.records) (lists : s.ListsSound)
include mem lists

theorem resolveCharged_touches (play : r.state.inPlay = true) (res : Resolution) :
    Touches (· = r) s (resolveRecord { r with attempts := r.attempts + 1 } res s) :=
  resolveRecord_touches (resolveRecord_charged_moves res mem play) mem rfl lists

theorem returnAccepted_touches (play : r.state.inPlay = true) : Touches (· = r) s (returnAccepted r s) := by
  have moves := returnAccepted_moves mem play
  rcases Nat.lt_or_ge (r.attempts + 1) (classOf s r.cls).attemptLimit with below | limit
  · rw [returnAccepted_below below] at moves ⊢
    exact putRecord_touches moves mem rfl lists
  · rw [returnAccepted_atLimit limit]
    exact resolveCharged_touches mem lists play _

theorem noticeAccepted_touches (kind : NoticeKind) (play : r.state.inPlay = true) :
    Touches (· = r) s (noticeAccepted kind me r s) := by
  cases kind with
  | done outcome => exact resolve_touches _ mem lists
  | ret =>
    unfold noticeAccepted
    simp only
    split
    case isTrue => exact resolve_touches _ mem lists
    case isFalse => exact returnAccepted_touches mem lists play

end

theorem noticeAccepted_answers (mem : r ∈ s.offer.records) : AnsweredIn me n r s (noticeAccepted n.kind me r s) := by
  refine ⟨fun outcome is => ?_, fun is draining => ?_, fun is online below => ?_, fun is online limit => ?_⟩
  all_goals rw [is]
  · exact resolveRecord_ended r r _ mem rfl
  · have withdraws : noticeAccepted .ret me r s = resolveRecord r .withdrawn s := if_pos draining
    rw [withdraws]
    exact resolveRecord_ended r r _ mem rfl
  · rw [noticeAccepted_ret_givenBack online below]
    exact List.mem_map.2 ⟨r, mem, if_pos rfl⟩
  · rw [noticeAccepted_ret_online online, returnAccepted_atLimit limit]
    exact resolveRecord_ended { r with attempts := r.attempts + 1 } r _ mem rfl

theorem freeCopy_touchesNone (ref : CopyRef) (s : State) : Touches touched s (freeCopy ref s) := by
  rw [freeCopy_eq]
  exact .of_eq rfl rfl rfl rfl

theorem endCopy_offer (n : HeldNotice) (how : CopyEnd) (s : State) : (endCopy n how s).offer = s.offer := by
  unfold endCopy
  split
  · rw [freeCopy_eq]; rfl
  · rw [writeNotice_eq]; rfl

theorem endCopy_touches (n : HeldNotice) (how : CopyEnd) (s : State) : CopiesTouched (· = n.ref) s (endCopy n how s) := by
  unfold endCopy
  split
  · have before : CopiesTouched (· = n.ref) s (pushReport (copyReport n how) (countResolution s)) := .of_work rfl rfl
    exact (before.trans (freeCopy_touches n.ref _)).mono fun _ => Or.rec id id
  · have before : CopiesTouched (· = n.ref) s (countResolution s) := .of_work rfl rfl
    exact (before.trans (writeNotice_touches _ _)).mono fun _ => Or.rec id id

/-- What a self-notice is handed to (R157). -/
theorem handIfSelf_held (work : s.WorkSound) (mem : n ∈ heldNotices s) (own : n.originator = s.control.number)
    (unresolved : n.resolution = none) : handIfSelf n.ref s = handSelfNotice n s := by
  have self : isSelfNotice s n = true := by simp [isSelfNotice, own, unresolved]
  obtain ⟨-, nodup, -⟩ := workSound_iff.1 work
  unfold handIfSelf
  rw [findNotice_of_mem nodup mem]
  exact if_pos self

theorem handSelfNotice_matched (lists : s.ListsSound) (held : r ∈ s.offer.records) (own : Matches s.control.number n r) :
    handSelfNotice n s = freeCopy n.ref (noticeAccepted n.kind s.control.number r s) := by
  obtain ⟨tag, generation, timer, claimed⟩ := own
  unfold handSelfNotice
  rw [← tag, ← generation, matchNotice_of_mem lists.tags.2 held claimed]

theorem handSelfNotice_stale (none : ∀ r ∈ s.offer.records, ¬ Matches s.control.number n r) :
    handSelfNotice n s = endCopy n .stale s := by
  unfold handSelfNotice
  rw [matchNotice_none.2 fun r held tag generation timer claimed => none r held ⟨tag, generation, timer, claimed⟩]

theorem handSelfNotice_touches (lists : s.ListsSound) :
    Touches (fun r => r ∈ s.offer.records ∧ Matches s.control.number n r) s (handSelfNotice n s) := by
  by_cases matched : ∃ r ∈ s.offer.records, Matches s.control.number n r
  · obtain ⟨r, held, own⟩ := matched
    rw [handSelfNotice_matched lists held own]
    refine ((noticeAccepted_touches held lists n.kind own.inPlay).trans (freeCopy_touchesNone (touched := (· = r)) n.ref _)).mono ?_
    rintro x (rfl | rfl) <;> exact ⟨held, own⟩
  · push Not at matched
    have offer : (handSelfNotice n s).offer = s.offer := by rw [handSelfNotice_stale matched, endCopy_offer]
    exact .of_moves (handSelfNotice_moves n s) (fun x mem _ => by rw [offer]; exact mem)
      fun x mem => .inl (by rw [← offer]; exact mem)

theorem handSelfNotice_copies (lists : s.ListsSound) : CopiesTouched (· = n.ref) s (handSelfNotice n s) := by
  by_cases matched : ∃ r ∈ s.offer.records, Matches s.control.number n r
  · obtain ⟨r, held, own⟩ := matched
    rw [handSelfNotice_matched lists held own]
    have only := onlyTickets_noticeAccepted n.kind s.control.number r s
    exact ((CopiesTouched.of_work (touched := (· = n.ref)) only.work only.claim).trans (freeCopy_touches n.ref _)).mono
      fun _ => Or.rec id id
  · push Not at matched
    rw [handSelfNotice_stale matched]
    exact endCopy_touches n .stale s

/-- What has become of a notice that matched no record: its copy has ended STALE (R106, R158). -/
def StaleEnd (n : HeldNotice) (s t : State) : Prop :=
  (Freed n.ref t ∧ copyReport n .stale ∈ t.reports.queue) ∨
    (16 ≤ t.reports.queue.length ∧ ∃ k, s.reports.resolutionCounter ≤ k ∧
      { n with resolution := some ⟨.stale, k⟩ } ∈ heldNotices t)

theorem StaleEnd.after {copies : CopyRef → Prop} (h : StaleEnd n s t) (k : Touches touched t u) (c : CopiesTouched copies t u)
    (other : ¬ copies n.ref) : StaleEnd n s u := by
  rcases h with ⟨freed, placed⟩ | ⟨full, number, drawn, waits⟩
  · exact .inl ⟨freed.after c, k.queue.subset placed⟩
  · exact .inr ⟨full.trans k.queue.length_le, number, drawn, c.held waits other⟩

theorem StaleEnd.before (h : StaleEnd n t u) (k : Touches touched s t) : StaleEnd n s u :=
  h.imp_right fun ⟨full, number, drawn, waits⟩ => ⟨full, number, k.numbers.trans drawn, waits⟩

section
variable (mem : n ∈ heldNotices s) (none : ∀ r ∈ s.offer.records, ¬ Matches s.control.number n r)
include mem none

theorem handSelfNotice_staleTaken : EndTaken (copyReport n .stale)
    (fun k => { n with resolution := some ⟨.stale, k⟩ } ∈ heldNotices (handSelfNotice n s)) s (handSelfNotice n s) := by
  rw [handSelfNotice_stale none]
  rcases Nat.lt_or_ge s.reports.queue.length 16 with room | full
  · rw [endCopy_room n .stale room]
    exact ⟨Nat.lt_succ_self _, .inl ⟨room, List.prefix_rfl⟩⟩
  · have held := writeNotice_held mem (some ⟨.stale, s.reports.resolutionCounter⟩)
    rw [endCopy_full n .stale full]
    refine ⟨Nat.lt_succ_self _, .inr ⟨full, ?_, held⟩⟩
    rw [writeNotice_eq]

theorem handSelfNotice_staleEnd : StaleEnd n s (handSelfNotice n s) := by
  rw [handSelfNotice_stale none]
  rcases Nat.lt_or_ge s.reports.queue.length 16 with room | full
  · rw [endCopy_room n .stale room]
    exact .inl ⟨freeCopy_freed n.ref s, List.mem_append_right _ (List.mem_singleton_self _)⟩
  · have held := writeNotice_held mem (some ⟨.stale, s.reports.resolutionCounter⟩)
    rw [endCopy_full n .stale full]
    refine .inr ⟨?_, _, le_rfl, held⟩
    rw [writeNotice_eq]
    exact full

end

section
variable (lists : s.ListsSound) (held : r ∈ s.offer.records) (own : Matches s.control.number n r)
include lists held own

theorem handSelfNotice_answers : AnsweredIn s.control.number n r s (handSelfNotice n s) ∧ Freed n.ref (handSelfNotice n s) := by
  rw [handSelfNotice_matched lists held own]
  have control := (onlyTickets_noticeAccepted n.kind s.control.number r s).control
  exact ⟨(noticeAccepted_answers held).after control (freeCopy_touchesNone (touched := fun _ => False) n.ref _) nofun,
    freeCopy_freed n.ref _⟩

theorem handSelfNotice_withdrawTaken (ret : n.kind = .ret) (draining : s.control.state = .draining)
    (report : (classOf s r.cls).report = true) : EndTaken (recordReport r .withdrawn)
      (fun k => { r with state := .resolved .withdrawn k } ∈ (handSelfNotice n s).offer.records) s (handSelfNotice n s) := by
  have resolved := noticeAccepted_ret_withdrawn (sender := s.control.number) (r := r) draining
  rw [handSelfNotice_matched lists held own, ret, freeCopy_eq]
  exact resolved.taken report ⟨r, held, rfl⟩

end

end

/-! ### Notices handed in turn (R106) -/

/-- Each of the notices handed, as it stands when its turn comes. -/
def handEach (ns : List HeldNotice) (s : State) : State := ns.foldl (fun t n => handIfSelf n.ref t) s

/-- Held notices of the station's own that have not been answered, each of another copy and another ticket. -/
structure SelfNotices (ns : List HeldNotice) (s : State) : Prop where
  held : ∀ n ∈ ns, n ∈ heldNotices s
  own : ∀ n ∈ ns, n.originator = s.control.number
  unresolved : ∀ n ∈ ns, n.resolution = none
  refs : (ns.map (·.ref)).Nodup
  tags : (ns.map (·.tag)).Nodup

section
variable {s t : State} {ns before after : List HeldNotice} {n : HeldNotice} {r : OutRecord}

theorem SelfNotices.sublist (h : SelfNotices ns s) (sub : before.Sublist ns) : SelfNotices before s where
  held := fun n mem => h.held n (sub.subset mem)
  own := fun n mem => h.own n (sub.subset mem)
  unresolved := fun n mem => h.unresolved n (sub.subset mem)
  refs := h.refs.sublist (sub.map _)
  tags := h.tags.sublist (sub.map _)

/-- Notices of untouched copies can still be handed. -/
theorem SelfNotices.untouched {copies : CopyRef → Prop} (h : SelfNotices ns s) (control : t.control = s.control)
    (k : CopiesTouched copies s t) (apart : ∀ n ∈ ns, ¬ copies n.ref) : SelfNotices ns t where
  held := fun n mem => k.held (h.held n mem) (apart n mem)
  own := fun n mem => by rw [control]; exact h.own n mem
  unresolved := h.unresolved
  refs := h.refs
  tags := h.tags

theorem SelfNotices.apart (h : SelfNotices (before ++ n :: after) s) :
    (∀ m ∈ before, m.ref ≠ n.ref ∧ m.tag ≠ n.tag) ∧ ∀ m ∈ after, m.ref ≠ n.ref ∧ m.tag ≠ n.tag := by
  have refs := h.refs
  have tags := h.tags
  rw [List.map_append, List.nodup_append] at refs tags
  obtain ⟨-, refsAfter, refsApart⟩ := refs
  obtain ⟨-, tagsAfter, tagsApart⟩ := tags
  obtain ⟨freshRef, -⟩ := List.nodup_cons.1 refsAfter
  obtain ⟨freshTag, -⟩ := List.nodup_cons.1 tagsAfter
  refine ⟨fun m mem => ⟨?_, ?_⟩, fun m mem => ⟨fun same => ?_, fun same => ?_⟩⟩
  · exact refsApart _ (List.mem_map_of_mem mem) _ (List.mem_map_of_mem List.mem_cons_self)
  · exact tagsApart _ (List.mem_map_of_mem mem) _ (List.mem_map_of_mem List.mem_cons_self)
  · exact freshRef (List.mem_map.2 ⟨m, mem, same⟩)
  · exact freshTag (List.mem_map.2 ⟨m, mem, same⟩)

theorem handEach_append (s : State) : handEach (before ++ after) s = handEach after (handEach before s) := List.foldl_append

/-- A record that a notice matches after others have been handed was there before them. -/
theorem matched_before {touched : OutRecord → Prop} {me : StationNumber} (k : Touches touched s t)
    (other : ∀ x, touched x → x.tag ≠ n.tag) (own : Matches me n r) : r ∈ t.offer.records ↔ r ∈ s.offer.records := by
  obtain ⟨tag, -, timer, claimed⟩ := own
  refine ⟨fun mem => ?_, fun mem => k.kept r mem fun own => other r own tag⟩
  rcases k.made r mem with old | ⟨-, l, -, waiting | ⟨j, resolved⟩⟩ | ⟨x, own, same⟩
  · exact old
  · exact nomatch claimed.symm.trans waiting
  · exact nomatch claimed.symm.trans resolved
  · exact absurd (same.trans tag) (other x own)

theorem handEach_touches (h : SelfNotices ns s) (lists : s.ListsSound) (work : s.WorkSound) :
    Touches (fun r => r ∈ s.offer.records ∧ ∃ n ∈ ns, Matches s.control.number n r) s (handEach ns s) ∧
      CopiesTouched (fun ref => ∃ n ∈ ns, n.ref = ref) s (handEach ns s) := by
  induction ns generalizing s with
  | nil => exact ⟨.refl s _, .of_work rfl rfl⟩
  | cons n ns ih =>
    obtain ⟨-, apart⟩ := SelfNotices.apart (before := []) h
    have handed : handIfSelf n.ref s = handSelfNotice n s :=
      handIfSelf_held work (h.held n List.mem_cons_self) (h.own n List.mem_cons_self) (h.unresolved n List.mem_cons_self)
    have one := handSelfNotice_touches (n := n) lists
    have copy := handSelfNotice_copies (n := n) lists
    obtain ⟨records, copies⟩ := ih ((h.sublist (List.sublist_cons_self n ns)).untouched one.control copy
      fun m mem same => (apart m mem).1 same) (one.lists lists) (copy.sound work)
    have turn : handEach (n :: ns) s = handEach ns (handSelfNotice n s) := by rw [← handed]; rfl
    rw [turn]
    refine ⟨(one.trans records).mono fun r touched => ?_, (copy.trans copies).mono fun ref touched => ?_⟩
    · rcases touched with ⟨held, own⟩ | ⟨held, m, mem, own⟩
      · exact ⟨held, n, List.mem_cons_self, own⟩
      · rw [one.control] at own
        refine ⟨(matched_before one (fun x touched same => ?_) own).1 held, m, List.mem_cons_of_mem n mem, own⟩
        exact (apart m mem).2 (same.symm.trans touched.2.1)
    · rcases touched with rfl | ⟨m, mem, rfl⟩
      · exact ⟨n, List.mem_cons_self, rfl⟩
      · exact ⟨m, List.mem_cons_of_mem n mem, rfl⟩

/-- The turn of one notice. -/
theorem handEach_at (h : SelfNotices ns s) (lists : s.ListsSound) (work : s.WorkSound) (split : ns = before ++ n :: after) :
    ∃ u, Touches (fun r => ∃ m ∈ before, Matches s.control.number m r) s u ∧ u.ListsSound ∧ n ∈ heldNotices u ∧
      (∀ r, Matches s.control.number n r → (r ∈ u.offer.records ↔ r ∈ s.offer.records)) ∧
      SelfNotices after (handSelfNotice n u) ∧ (handSelfNotice n u).ListsSound ∧ (handSelfNotice n u).WorkSound ∧
      handEach ns s = handEach after (handSelfNotice n u) ∧
      Touches (fun r => ∃ m ∈ after, Matches s.control.number m r) (handSelfNotice n u) (handEach ns s) ∧
      CopiesTouched (fun ref => ∃ m ∈ after, m.ref = ref) (handSelfNotice n u) (handEach ns s) := by
  subst split
  obtain ⟨apartBefore, apartAfter⟩ := h.apart
  obtain ⟨records, copies⟩ := handEach_touches (h.sublist (List.sublist_append_left before (n :: after))) lists work
  have rest := (h.sublist (List.sublist_append_right before (n :: after))).untouched records.control copies ?apart
  set u := handEach before s
  have listsU := records.lists lists
  have workU := copies.sound work
  have handed : handIfSelf n.ref u = handSelfNotice n u :=
    handIfSelf_held workU (rest.held n List.mem_cons_self) (rest.own n List.mem_cons_self) (rest.unresolved n List.mem_cons_self)
  have one := handSelfNotice_touches (n := n) listsU
  have copy := handSelfNotice_copies (n := n) listsU
  have later : SelfNotices after (handSelfNotice n u) :=
    (rest.sublist (List.sublist_cons_self n after)).untouched one.control copy fun m mem same => (apartAfter m mem).1 same
  have turn : handEach (before ++ n :: after) s = handEach after (handSelfNotice n u) := by
    rw [handEach_append, ← handed]
    rfl
  obtain ⟨recordsAfter, copiesAfter⟩ := handEach_touches later (one.lists listsU) (copy.sound workU)
  rw [one.control, records.control] at recordsAfter
  refine ⟨u, records.mono fun r own => own.2, listsU, rest.held n List.mem_cons_self, fun r own => ?_, later,
    one.lists listsU, copy.sound workU, turn, ?_, ?_⟩
  case apart =>
    rintro m mem ⟨m', earlier, same⟩
    have refs := h.refs
    rw [List.map_append, List.nodup_append] at refs
    exact refs.2.2 _ (List.mem_map_of_mem earlier) _ (List.mem_map_of_mem mem) same
  · refine matched_before records (fun x touched same => ?_) own
    obtain ⟨-, m, earlier, tag, -⟩ := touched
    exact (apartBefore m earlier).2 (tag.symm.trans same)
  · rw [turn]
    exact recordsAfter.mono fun r own => own.2
  · rw [turn]
    exact copiesAfter

section
variable (h : SelfNotices ns s) (lists : s.ListsSound) (work : s.WorkSound) (mem : n ∈ ns)
include h lists work mem

theorem handEach_answers (held : r ∈ s.offer.records) (own : Matches s.control.number n r) :
    AnsweredIn s.control.number n r s (handEach ns s) ∧ Freed n.ref (handEach ns s) := by
  obtain ⟨before, after, split⟩ := List.append_of_mem mem
  obtain ⟨u, start, listsU, -, same, -, -, -, turn, rest, copies⟩ := handEach_at h lists work split
  have apart := (split ▸ h : SelfNotices (before ++ n :: after) s).apart
  rw [← start.control] at own
  have one := handSelfNotice_touches (n := n) listsU
  obtain ⟨answered, freed⟩ := handSelfNotice_answers listsU ((same r (start.control ▸ own)).2 held) own
  have tag := own.1
  have answeredLater := answered.after one.control rest fun x touched sameTag => ?_
  · rw [start.control] at answeredLater
    exact ⟨answeredLater.before start, freed.after copies⟩
  · obtain ⟨m, later, tag', -⟩ := touched
    exact (apart.2 m later).2 (tag'.symm.trans (sameTag.trans tag))

theorem handEach_stale (none : ∀ r ∈ s.offer.records, ¬ Matches s.control.number n r) : StaleEnd n s (handEach ns s) := by
  obtain ⟨before, after, split⟩ := List.append_of_mem mem
  obtain ⟨u, start, listsU, heldU, same, -, -, -, turn, rest, copies⟩ := handEach_at h lists work split
  have apart := (split ▸ h : SelfNotices (before ++ n :: after) s).apart
  have noneU : ∀ r ∈ u.offer.records, ¬ Matches u.control.number n r := by
    rw [start.control]
    exact fun r held own => none r ((same r own).1 held) own
  refine ((handSelfNotice_staleEnd heldU noneU).after rest copies ?_).before start
  rintro ⟨m, later, sameRef⟩
  exact (apart.2 m later).1 sameRef

/-- A notice that has been handed is held no longer, or with its resolution. -/
theorem handEach_resolves {m : HeldNotice} (held : m ∈ heldNotices (handEach ns s)) (ref : m.ref = n.ref) :
    m.resolution ≠ Option.none := by
  by_cases matched : ∃ r ∈ s.offer.records, Matches s.control.number n r
  · obtain ⟨r, mem', own⟩ := matched
    exact absurd ref ((handEach_answers h lists work mem mem' own).2.not_held held)
  · push Not at matched
    rcases handEach_stale h lists work mem matched with ⟨freed, -⟩ | ⟨-, k, -, waits⟩
    · exact absurd ref (freed.not_held held)
    · obtain ⟨-, nodup, -⟩ := workSound_iff.1 ((handEach_touches h lists work).2.sound work)
      rw [heldNotices_inj nodup held waits ref]
      nofun

end

end

end Sys2Proof.Machine
end

section
/-! PROOFS. The end of the station's own JOIN (R50, R51, R72, R74, R157): the no-peer holds cleared and set, the self-notices handed
and the waiting sources served. -/

namespace Sys2Proof.Machine

/-! ### The no-peer holds (R72) -/

/-- A level entry holds no latched edge (R64). -/
def LevelsUnlatched (s : State) : Prop :=
  ∀ l, isLevel s l = true → (entryAt s l).state ≠ .latched ∧ ∀ tag, (entryAt s l).state ≠ .live tag true

/-- Every hold is one that a NO-PEER end has set: a level entry, its line active, unmasked, with no peer in its set. -/
def HoldsJustified (s : State) : Prop :=
  ∀ l, (entryAt s l).hold = true → isLevel s l = true ∧ lineActive s l = true ∧ (entryAt s l).masked = false ∧
    setsMeet (s.control.config.sourceConfig l).dest s.control.roster = false

section
variable {s t : State}

theorem LevelsUnlatched.of_states (h : LevelsUnlatched s) (control : t.control = s.control)
    (states : ∀ k, (entryAt t k).state = (entryAt s k).state ∨ (entryAt t k).state = (entryAt s k).state.released ∨
      (entryAt t k).state = .quiet ∨ ∃ tag, (entryAt t k).state = .live tag false) : LevelsUnlatched t := by
  intro k level
  obtain ⟨unlatched, noEdge⟩ := h k (by rwa [isLevel_congr control] at level)
  rcases states k with same | released | quiet | ⟨tag, live⟩
  · rw [same]
    exact ⟨unlatched, noEdge⟩
  · rw [released]
    refine ⟨?_, fun _ => EntryState.released_eq_live⟩
    cases state : (entryAt s k).state with
    | quiet => nofun
    | latched => exact absurd state unlatched
    | live tag latched =>
      cases latched with
      | false => nofun
      | true => exact absurd state (noEdge tag)
  · rw [quiet]
    exact ⟨nofun, nofun⟩
  · rw [live]
    exact ⟨nofun, nofun⟩

theorem HoldsJustified.of_holds (h : HoldsJustified s) (control : t.control = s.control)
    (masks : ∀ l, (entryAt t l).masked = (entryAt s l).masked ∧ (entryAt t l).takenHigh = (entryAt s l).takenHigh)
    (holds : ∀ l, (entryAt t l).hold = true → (entryAt s l).hold = true) : HoldsJustified t := by
  intro l held
  obtain ⟨masked, taken⟩ := masks l
  have active : lineActive t l = lineActive s l := by unfold lineActive; rw [taken, control]
  rw [isLevel_congr control, active, masked, control]
  exact h l (holds l held)

/-! ### What sets a hold -/

theorem entryAt_releaseSource_hold (source : Source) (s : State) (k : Line) :
    (entryAt (releaseSource source s) k).hold = (entryAt s k).hold := by
  cases source with
  | soft => rfl
  | line l =>
    unfold releaseSource
    simp only
    split
    case h_1 | h_2 =>
      rw [entryAt_setEntry]
      split
      case isTrue same => rw [same]
      case isFalse => rfl
    case h_3 | h_4 => rfl

theorem entryAt_leaveList_hold (r : OutRecord) (s : State) (k : Line) :
    (entryAt (leaveList r s) k).hold = (entryAt s k).hold := entryAt_releaseSource_hold ..

theorem entryAt_numberDrawn_hold {r : OutRecord} {res : Resolution} {k : Line}
    (held : (entryAt (numberDrawn r res s) k).hold = true) :
    (entryAt s k).hold = true ∨ (res = .noPeer ∧ r.source = .line k ∧ isLevel s k = true) := by
  unfold numberDrawn at held
  split at held
  case isFalse => exact .inl held
  case isTrue noPeer =>
    by_cases own : r.source = .line k
    · by_cases level : isLevel s k = true
      · exact .inr ⟨noPeer, own, level⟩
      · rw [own] at held
        unfold holdSource at held
        simp only at held
        rw [if_neg (show ¬ isLevel (countResolution s) k = true from level)] at held
        exact .inl held
    · rw [entryAt_holdSource own] at held
      exact .inl held

theorem entryAt_fixResolution_hold {r : OutRecord} {res : Resolution} {k : Line}
    (held : (entryAt (fixResolution r res s) k).hold = true) :
    (entryAt s k).hold = true ∨ (res = .noPeer ∧ r.source = .line k ∧ isLevel s k = true) := by
  refine entryAt_numberDrawn_hold (r := r) (res := res) ?_
  rw [fixResolution_eq] at held
  split at held
  case isTrue =>
    split at held
    case isTrue => rwa [entryAt_leaveList_hold] at held
    case isFalse => exact held
  case isFalse => rwa [entryAt_leaveList_hold] at held

theorem entryAt_makeSourceRecord_hold {l k : Line} (held : (entryAt (makeSourceRecord l s) k).hold = true) :
    (entryAt s k).hold = true ∨
      (l = k ∧ isLevel s k = true ∧ setsMeet (s.control.config.sourceConfig k).dest s.control.roster = false) := by
  have live : (entryAt (setEntry l { entryAt s l with state := .live (nextTag s) false } s) k).hold = (entryAt s k).hold := by
    rw [entryAt_setEntry]
    split
    case isTrue same => rw [same]
    case isFalse => rfl
  unfold makeSourceRecord createRecord at held
  simp only at held
  split at held
  case isTrue => exact .inl (live ▸ held)
  case isFalse none =>
    rcases entryAt_fixResolution_hold held with before | ⟨-, own, level⟩
    · exact .inl (live ▸ before)
    · obtain rfl : l = k := by cases own; rfl
      exact .inr ⟨rfl, level, Bool.eq_false_of_not_eq_true none⟩

end

/-! ### What the handing and the serving do to the holds -/

/-- The laws of holds and latched edges that an entry to ONLINE keeps. -/
def EntriesJustified (s : State) : Prop := LevelsUnlatched s ∧ HoldsJustified s

section
variable {s t : State}

theorem EntriesJustified.of_sources (h : EntriesJustified s) (control : t.control = s.control) (sources : t.sources = s.sources) :
    EntriesJustified t := by
  have entries (l : Line) : entryAt t l = entryAt s l := by unfold entryAt; rw [sources]
  exact ⟨h.1.of_states control fun k => .inl (by rw [entries]),
    h.2.of_holds control (fun l => by rw [entries]; exact ⟨rfl, rfl⟩) fun l held => by rwa [entries] at held⟩

theorem fixResolution_justified {r : OutRecord} {res : Resolution} (h : EntriesJustified s) (peers : res ≠ .noPeer) :
    EntriesJustified (fixResolution r res s) := by
  have only := onlyTickets_fixResolution r res s
  refine ⟨h.1.of_states only.control fun k => ?_, h.2.of_holds only.control (fun l => ⟨(only.masks l).1, (only.masks l).2.1⟩)
    fun l held => (entryAt_fixResolution_hold held).resolve_right fun set => peers set.1⟩
  rcases fixResolution_cases r res s with ⟨-, -, states⟩ | ⟨-, -, states⟩
  · rw [states k]
    split
    case isTrue => exact .inr (.inl rfl)
    case isFalse => exact .inl rfl
  · exact .inl (states k)

theorem makeSourceRecord_justified {l : Line} (h : EntriesJustified s) (waits : waitingSource s l = true) :
    EntriesJustified (makeSourceRecord l s) := by
  have only := onlyTickets_makeSourceRecord l s
  obtain ⟨levels, holds⟩ := h
  refine ⟨levels.of_states only.control fun k => ?_, fun k held => ?_⟩
  · by_cases own : l = k
    · subst own
      rcases makeSourceRecord_entry l s with ⟨entry, -⟩ | ⟨-, -, live | quiet⟩
      · exact .inr (.inr (.inr ⟨_, by rw [entry]⟩))
      · exact .inr (.inr (.inr ⟨_, live⟩))
      · exact .inr (.inr (.inl quiet))
    · exact .inl (by rw [entryAt_makeSourceRecord own])
  · obtain ⟨masked, taken, -⟩ := only.masks k
    have active : lineActive (makeSourceRecord l s) k = lineActive s k := by unfold lineActive; rw [taken, only.control]
    rw [isLevel_congr only.control, active, masked, only.control]
    rcases entryAt_makeSourceRecord_hold held with before | ⟨rfl, level, none⟩
    · exact holds k before
    · unfold waitingSource at waits
      simp only [Bool.and_eq_true, Bool.not_eq_true', Bool.or_eq_true, beq_iff_eq] at waits
      obtain ⟨⟨-, unmasked⟩, latched | ⟨⟨⟨-, -⟩, active⟩, -⟩⟩ := waits
      · exact absurd latched (levels l level).1
      · exact ⟨level, active, unmasked, none⟩

theorem serveSource_justified (l : Line) (h : EntriesJustified s) : EntriesJustified (serveSource l s) := by
  unfold serveSource
  split
  case isTrue both =>
    obtain ⟨waits, -⟩ := Bool.and_eq_true_iff.1 both
    exact makeSourceRecord_justified h waits
  case isFalse => exact h

theorem serveWaiting_justified (n : Nat) (h : EntriesJustified s) : EntriesJustified (serveWaiting n s) := by
  induction n generalizing s with
  | zero => exact h
  | succ n ih =>
    unfold serveWaiting
    split
    case h_1 => exact h
    case h_2 l lowest =>
      split
      case isTrue => exact ih (makeSourceRecord_justified h (by simpa using List.find?_some lowest))
      case isFalse => exact h

theorem placeFreed_justified (source : Source) (h : EntriesJustified s) : EntriesJustified (placeFreed source s) := by
  cases source with
  | soft => exact serveWaiting_justified 8 h
  | line l => exact serveWaiting_justified 8 (serveSource_justified l h)

theorem resolveRecord_justified {r : OutRecord} {res : Resolution} (h : EntriesJustified s) (peers : res ≠ .noPeer) :
    EntriesJustified (resolveRecord r res s) := by
  unfold resolveRecord
  split
  case isTrue => exact placeFreed_justified _ (fixResolution_justified h peers)
  case isFalse => exact fixResolution_justified h peers

theorem noticeAccepted_justified (kind : NoticeKind) (sender : StationNumber) (r : OutRecord) (h : EntriesJustified s) :
    EntriesJustified (noticeAccepted kind sender r s) := by
  cases kind with
  | done outcome => exact resolveRecord_justified h nofun
  | ret =>
    unfold noticeAccepted returnAccepted
    simp only
    split
    case isTrue => exact resolveRecord_justified h nofun
    case isFalse =>
      split
      case isTrue => exact h.of_sources rfl rfl
      case isFalse => exact resolveRecord_justified h nofun

theorem handIfSelf_justified (ref : CopyRef) (h : EntriesJustified s) : EntriesJustified (handIfSelf ref s) := by
  have freed {ref : CopyRef} {u : State} (h : EntriesJustified u) : EntriesJustified (freeCopy ref u) := by
    rw [freeCopy_eq]
    exact h.of_sources rfl rfl
  unfold handIfSelf
  split
  case h_2 => exact h
  case h_1 n _ =>
    split
    case isFalse => exact h
    case isTrue =>
      unfold handSelfNotice endCopy
      split
      case h_1 r _ => exact freed (noticeAccepted_justified n.kind _ r h)
      case h_2 =>
        split
        case isTrue => exact freed (h.of_sources rfl rfl)
        case isFalse =>
          rw [writeNotice_eq]
          exact h.of_sources rfl rfl

theorem handEach_justified (ns : List HeldNotice) (h : EntriesJustified s) : EntriesJustified (handEach ns s) := by
  induction ns generalizing s with
  | nil => exact h
  | cons n ns ih => exact ih (handIfSelf_justified n.ref h)

end

/-! ### The self-notices held (R157) -/

section
variable {s : State}

theorem map_filterMap_sublist {α β γ : Type} {f : α → Option β} {g : α → γ} {key : β → γ}
    (keys : ∀ a b, f a = some b → key b = g a) (l : List α) : ((l.filterMap f).map key).Sublist (l.map g) := by
  induction l with
  | nil => exact .refl _
  | cons a l ih =>
    cases found : f a with
    | none =>
      rw [List.filterMap_cons, found]
      exact ih.cons _
    | some b =>
      rw [List.filterMap_cons, found, List.map_cons, List.map_cons, keys a b found]
      exact ih.cons_cons _

/-- No two held notices are of one copy. -/
theorem heldNotices_refs_nodup (work : s.WorkSound) : ((heldNotices s).map (·.ref)).Nodup := by
  obtain ⟨-, nodup, -⟩ := workSound_iff.1 work
  obtain ⟨tickets, -, -⟩ := copies_nodup_iff.1 nodup
  have slots : (((List.finRange 8).filterMap fun i => (s.work.slots.get i).bind (slotNotice i)).map (·.ref)).Sublist
      ((List.finRange 8).map CopyRef.slot) :=
    map_filterMap_sublist (fun i n is => by
      obtain ⟨e, -, noticed⟩ := Option.bind_eq_some_iff.1 is
      exact slotNotice_ref noticed) _
  have inbound : ((s.work.inbound.filterMap inboundNotice).map (·.ref)).Sublist
      (s.work.inbound.map fun x => CopyRef.inbound x.originator x.tag) :=
    map_filterMap_sublist (fun _ _ is => inboundNotice_ref is) _
  have slotsNodup : ((List.finRange 8).map CopyRef.slot).Nodup :=
    (List.nodup_finRange 8).map fun _ _ same => CopyRef.slot.inj same
  have inboundNodup : (s.work.inbound.map fun x => CopyRef.inbound x.originator x.tag).Nodup := by
    have mapped := tickets.map (f := fun ticket : StationNumber × Tag => CopyRef.inbound ticket.1 ticket.2)
      fun a b same => Prod.ext (CopyRef.inbound.inj same).1 (CopyRef.inbound.inj same).2
    rwa [List.map_map] at mapped
  unfold heldNotices
  rw [List.map_append]
  refine List.nodup_append.2 ⟨slotsNodup.sublist slots, inboundNodup.sublist inbound, fun a memA b memB same => ?_⟩
  obtain ⟨i, -, rfl⟩ := List.mem_map.1 (slots.subset memA)
  obtain ⟨x, -, rfl⟩ := List.mem_map.1 (inbound.subset memB)
  cases same

theorem heldNotices_ticket {n : HeldNotice} (mem : n ∈ heldNotices s) :
    (∃ i e, s.work.slots.get i = some e ∧ n.ref = .slot i ∧ e.ticket = (n.originator, n.tag)) ∨
      ∃ x ∈ s.work.inbound, n.ref = .inbound x.originator x.tag ∧ x.ticket = (n.originator, n.tag) := by
  rcases mem_heldNotices.1 mem with ⟨i, e, held, is⟩ | ⟨x, held, is⟩
  · refine .inl ⟨i, e, held, slotNotice_ref is, ?_⟩
    unfold slotNotice at is
    split at is
    · cases is
    · cases is; rfl
  · refine .inr ⟨x, held, inboundNotice_ref is, ?_⟩
    unfold inboundNotice at is
    split at is
    · cases is
    · cases is; rfl

/-- Of one ticket no two notices are held. -/
theorem heldNotices_ticket_inj (work : s.WorkSound) {a b : HeldNotice} (memA : a ∈ heldNotices s) (memB : b ∈ heldNotices s)
    (originator : a.originator = b.originator) (tag : a.tag = b.tag) : a = b := by
  obtain ⟨-, nodup, -⟩ := workSound_iff.1 work
  obtain ⟨-, slots, apart⟩ := copies_nodup_iff.1 nodup
  refine heldNotices_inj nodup memA memB ?_
  have ticket : (a.originator, a.tag) = (b.originator, b.tag) := Prod.ext originator tag
  rcases heldNotices_ticket memA with ⟨i, e, held, ref, is⟩ | ⟨x, held, ref, is⟩
  · rcases heldNotices_ticket memB with ⟨j, e', held', ref', is'⟩ | ⟨y, held', ref', is'⟩
    · rw [ref, ref', slots i j e e' held held' (is.trans (ticket.trans is'.symm))]
    · exact absurd (is'.trans (ticket.symm.trans is.symm)) (apart y held' i e held)
  · rcases heldNotices_ticket memB with ⟨j, e', held', ref', is'⟩ | ⟨y, held', ref', is'⟩
    · exact absurd (is.trans (ticket.trans is'.symm)) (apart x held j e' held')
    · have same := is.trans (ticket.trans is'.symm)
      obtain ⟨sameOriginator, sameTag⟩ := Prod.ext_iff.1 same
      rw [ref, ref']
      exact congrArg₂ CopyRef.inbound sameOriginator sameTag

/-- The self-notices held, oldest first. -/
def selfNotices (s : State) : List HeldNotice := orderBy (·.age) ((heldNotices s).filter (isSelfNotice s))

theorem handSelfNotices_eq (s : State) : handSelfNotices s = handEach (selfNotices s) s := List.foldl_map

theorem mem_selfNotices {n : HeldNotice} :
    n ∈ selfNotices s ↔ n ∈ heldNotices s ∧ n.originator = s.control.number ∧ n.resolution = none := by
  unfold selfNotices isSelfNotice
  rw [(orderBy_perm _).mem_iff, List.mem_filter, Bool.and_eq_true, beq_iff_eq, Option.isNone_iff_eq_none]

/-- Self-notices of different copies are of different tickets. -/
theorem selfNotices_of {ns : List HeldNotice} (work : s.WorkSound) (refs : (ns.map (·.ref)).Nodup)
    (parts : ∀ n ∈ ns, n ∈ heldNotices s ∧ n.originator = s.control.number ∧ n.resolution = none) : SelfNotices ns s := by
  refine ⟨fun n mem => (parts n mem).1, fun n mem => (parts n mem).2.1, fun n mem => (parts n mem).2.2, refs, ?_⟩
  refine refs.of_map.map_on fun a memA b memB tag => ?_
  obtain ⟨heldA, ownA, -⟩ := parts a memA
  obtain ⟨heldB, ownB, -⟩ := parts b memB
  exact heldNotices_ticket_inj work heldA heldB (ownA.trans ownB.symm) tag

theorem selfNotices_sound (work : s.WorkSound) : SelfNotices (selfNotices s) s := by
  refine selfNotices_of work ?_ fun n mem => mem_selfNotices.1 mem
  unfold selfNotices
  exact ((orderBy_perm _).map _).nodup_iff.2 ((heldNotices_refs_nodup work).sublist (List.filter_sublist.map _))

end

end Sys2Proof.Machine
end

section
/-! PROOFS. The end of the station's own JOIN by its fate (R38, R41, R49 to R51): lost, broken or void; with the clash slot
dominant; and the entry to ONLINE. -/

namespace Sys2Proof.Machine

section
variable {s t : State}

/-- Serving the sources touches no record and no copy. -/
theorem serveSources_touches (touched : OutRecord → Prop) (s : State) : Touches touched s (serveSources s) :=
  .of_moves (serveSources_moves s) (fun _ mem _ => (serveSources_keeps s).subset mem)
    fun _ mem => (mem_placeFreed (source := .soft) mem).imp_right .inl

theorem serveSources_copies (touched : CopyRef → Prop) (s : State) : CopiesTouched touched s (serveSources s) :=
  .of_work (onlyTickets_serveSources s).work (onlyTickets_serveSources s).claim

/-- The station at its entry to ONLINE, with the holds cleared, before the self-notices are handed (R50, R72). -/
def onlineEntered (presence : StationSet) (s : State) : State := clearHolds
  { s with
    control.state := .online
    control.roster := setAdd (s.control.roster ||| presence) s.control.number
    control.joinCandidate := none
    control.stateChanged := true }

/-- The self-notices answered and the sources served (R157, R74). -/
def answeredAndServed (s : State) : State := serveSources (handEach (selfNotices s) s)

theorem enterOnline_eq (presence : StationSet) (s : State) :
    enterOnline presence s = answeredAndServed (onlineEntered presence s) :=
  congrArg serveSources (handSelfNotices_eq _)

theorem onlineEntered_entry (presence : StationSet) (s : State) (l : Line) :
    entryAt (onlineEntered presence s) l = { entryAt s l with hold := false } := vector_get_map s.sources l _

/-! ### What the answers and the serving leave -/

theorem answeredAndServed_only (s : State) :
    OnlyTickets { s with work := (answeredAndServed s).work } (answeredAndServed s) := by
  have moves : TicketMoves s (answeredAndServed s) := (handSelfNotices_eq s ▸ handSelfNotices_moves s).trans (serveSources_moves _)
  exact moves.onlyTickets

section
variable (lists : s.ListsSound) (work : s.WorkSound)
include lists work

theorem answeredAndServed_touches :
    Touches (fun r => r ∈ s.offer.records ∧ ∃ n ∈ selfNotices s, Matches s.control.number n r) s (answeredAndServed s) ∧
      CopiesTouched (fun ref => ∃ n ∈ selfNotices s, n.ref = ref) s (answeredAndServed s) := by
  obtain ⟨records, copies⟩ := handEach_touches (selfNotices_sound work) lists work
  exact ⟨(records.trans (serveSources_touches (fun _ => False) _)).mono fun _ => Or.rec id False.elim,
    (copies.trans (serveSources_copies (fun _ => False) _)).mono fun _ => Or.rec id False.elim⟩

/-- Every self-notice held has been answered. -/
theorem answeredAndServed_resolved {n : HeldNotice} (mem : n ∈ heldNotices (answeredAndServed s))
    (own : n.originator = s.control.number) : n.resolution ≠ none := by
  have held : n ∈ heldNotices (handEach (selfNotices s) s) :=
    (serveSources_copies (fun _ => False) _).heldBefore mem id
  by_cases handed : ∃ m ∈ selfNotices s, m.ref = n.ref
  · obtain ⟨m, inList, ref⟩ := handed
    exact handEach_resolves (selfNotices_sound work) lists work inList held ref.symm
  · intro unresolved
    have before := (answeredAndServed_touches lists work).2.heldBefore mem handed
    exact handed ⟨n, mem_selfNotices.2 ⟨before, own, unresolved⟩, rfl⟩

theorem answeredAndServed_keepsNotice {n : HeldNotice} (mem : n ∈ heldNotices s) (resolved : n.resolution ≠ none) :
    n ∈ heldNotices (answeredAndServed s) := by
  refine (answeredAndServed_touches lists work).2.held mem ?_
  rintro ⟨m, inList, ref⟩
  obtain ⟨held, -, unresolved⟩ := mem_selfNotices.1 inList
  obtain ⟨-, nodup, -⟩ := workSound_iff.1 work
  rw [heldNotices_inj nodup held mem ref] at unresolved
  exact resolved unresolved

theorem answeredAndServed_keepsSlot {i : Fin 8} {e : ServiceEntry} (held : s.work.slots.get i = some e)
    (other : e.state = .taken ∨ e.originator ≠ s.control.number) :
    (answeredAndServed s).work.slots.get i = some e := by
  refine ((answeredAndServed_touches lists work).2.slots i ?_).trans held
  rintro ⟨m, inList, ref⟩
  obtain ⟨mem, own, -⟩ := mem_selfNotices.1 inList
  obtain ⟨e', held', is⟩ := mem_heldNotices_slot mem ref
  cases held.symm.trans held'
  unfold slotNotice at is
  split at is
  case h_1 => cases is
  case h_2 notifying =>
    cases is
    rcases other with taken | foreign
    · exact nomatch notifying.symm.trans taken
    · exact foreign own

theorem answeredAndServed_keepsInbound {x : InRecord} (held : x ∈ s.work.inbound)
    (other : x.state = .waiting ∨ x.originator ≠ s.control.number) : x ∈ (answeredAndServed s).work.inbound := by
  refine (answeredAndServed_touches lists work).2.kept x held ?_
  rintro ⟨m, inList, ref⟩
  obtain ⟨mem, own, -⟩ := mem_selfNotices.1 inList
  obtain ⟨y, held', originator, tag, is⟩ := mem_heldNotices_inbound mem ref
  obtain ⟨-, nodup, -⟩ := workSound_iff.1 work
  obtain rfl := inbound_inj (copies_inbound_nodup nodup) held' held originator tag
  unfold inboundNotice at is
  split at is
  case h_1 => cases is
  case h_2 returning =>
    cases is
    rcases other with waiting | foreign
    · exact nomatch returning.symm.trans waiting
    · exact foreign own

theorem answeredAndServed_keepsRecord {r : OutRecord} (mem : r ∈ s.offer.records)
    (other : ∀ n ∈ selfNotices s, ¬ Matches s.control.number n r) : r ∈ (answeredAndServed s).offer.records :=
  (answeredAndServed_touches lists work).1.kept r mem fun ⟨_, n, inList, own⟩ => other n inList own

theorem answeredAndServed_madeByLine {x : OutRecord} (mem : x ∈ (answeredAndServed s).offer.records)
    (new : ∀ r ∈ s.offer.records, r.tag ≠ x.tag) : LineMade s x := by
  rcases (answeredAndServed_touches lists work).1.made x mem with old | line | ⟨r, ⟨held, -⟩, tag⟩
  · exact absurd rfl (new x old)
  · exact line.2
  · exact absurd tag (new r held)

section
variable {n : HeldNotice} (inList : n ∈ selfNotices s)
include inList

theorem answeredAndServed_answers {r : OutRecord} (mem : r ∈ s.offer.records) (own : Matches s.control.number n r) :
    AnsweredIn s.control.number n r s (answeredAndServed s) ∧ Freed n.ref (answeredAndServed s) := by
  obtain ⟨answered, freed⟩ := handEach_answers (selfNotices_sound work) lists work inList mem own
  have control := (handEach_touches (selfNotices_sound work) lists work).1.control
  exact ⟨answered.after control (serveSources_touches (fun _ => False) _) nofun,
    freed.after (serveSources_copies (fun _ => False) _)⟩

theorem answeredAndServed_stale (none : ∀ r ∈ s.offer.records, ¬ Matches s.control.number n r) :
    StaleEnd n s (answeredAndServed s) :=
  (handEach_stale (selfNotices_sound work) lists work inList none).after (serveSources_touches (fun _ => False) _)
    (serveSources_copies (fun _ => False) _) id

end

end

theorem answeredAndServed_justified (h : EntriesJustified s) : EntriesJustified (answeredAndServed s) :=
  serveWaiting_justified 8 (handEach_justified _ h)

/-! ### The end of the own JOIN -/

theorem joinFrameEnded_none {fate : JoinFate} (none : ∀ f, s.bus.ownFrame = some f → f.candidate ≠ .join) :
    joinFrameEnded fate s = s := by
  unfold joinFrameEnded
  split
  case h_1 own =>
    obtain ⟨f, flight, join⟩ := ownCandidate_frame own
    exact absurd join (none f flight)
  all_goals rfl

theorem joinFrameEnded_own {fate : JoinFate} (own : ownCandidate s = some .join) : joinFrameEnded fate s =
    muteIfDue (joinEnded fate (endOwnFrame (joinErrors s.bus.errorCount fate) s)) := by
  unfold joinFrameEnded
  rw [own]

end

/-- The holds that stand after the entry are those that NO-PEER ends within it have set (R72). -/
theorem enterOnline_holds (presence : StationSet) {s : State} (entries : s.EntriesSound) {l : Line}
    (held : (entryAt (answeredAndServed (onlineEntered presence s)) l).hold = true) :
    isLevel (answeredAndServed (onlineEntered presence s)) l = true ∧
      lineActive (answeredAndServed (onlineEntered presence s)) l = true ∧
      (entryAt (answeredAndServed (onlineEntered presence s)) l).masked = false ∧
      setsMeet ((answeredAndServed (onlineEntered presence s)).control.config.sourceConfig l).dest
        (answeredAndServed (onlineEntered presence s)).control.roster = false := by
  have levels : LevelsUnlatched (onlineEntered presence s) := fun k level => by
    rw [onlineEntered_entry]
    exact entries.2 k level
  have cleared : HoldsJustified (onlineEntered presence s) := fun k held => by
    rw [onlineEntered_entry] at held
    cases held
  exact (answeredAndServed_justified ⟨levels, cleared⟩).2 l held

/-- Settles O46: the fates, and for a clean JOIN what the answers to the self-notices and the serving of the sources leave. -/
theorem joinEndByClash : Obligations.JoinEndByClash := by
  intro fate s run
  rw [exec_of_run run]
  refine ⟨fun none => congrArg _ (joinFrameEnded_none none), ?_⟩
  intro f joining flight join errors ended below
  have own : ownCandidate s = some .join := by rw [ownCandidate_eq (by rw [joining]; rfl) flight, join]
  have ends : effect (.joinFrameEnd fate) s = muteIfDue (joinEnded fate (endOwnFrame (joinErrors s.bus.errorCount fate) s)) :=
    joinFrameEnded_own own
  rw [ends]
  refine ⟨fun failed => ?_, ?_, ?_⟩
  · rcases failed with rfl | rfl | rfl <;> exact congrArg _ (muteIfDue_below (s := endOwnFrame _ s) below)
  · rintro presence rfl
    set s' := endOwnFrame (joinErrors s.bus.errorCount (.clean presence true)) s
    exact ⟨_, congrArg _ (muteIfDue_silent (s := enterFaultClash s') rfl), enterFaultClash_empties s'⟩
  · rintro presence rfl lists work
    set s' := endOwnFrame (joinErrors s.bus.errorCount (.clean presence false)) s
    set b := onlineEntered presence s' with b_eq
    have listsB : b.ListsSound := lists
    have workB : b.WorkSound := work
    have only := answeredAndServed_only b
    obtain ⟨records, copies⟩ := answeredAndServed_touches listsB workB
    have online : joinEnded (.clean presence false) s' = answeredAndServed b := enterOnline_eq presence s'
    have quiet : (answeredAndServed b).bus.errorCount ≤ 31 := by rw [only.bus]; exact below
    have self (n : HeldNotice) : n ∈ selfNotices b ↔
        n ∈ heldNotices s ∧ n.originator = s.control.number ∧ n.resolution = none := mem_selfNotices
    rw [online, muteIfDue_below quiet]
    refine ⟨answeredAndServed b, rfl, only.bus, only.claim, only.port, only.control, copies.counter,
      fun n mem => answeredAndServed_resolved listsB workB mem, fun n => answeredAndServed_keepsNotice listsB workB,
      copies.empty, copies.tickets, fun i e => answeredAndServed_keepsSlot listsB workB,
      fun r => answeredAndServed_keepsInbound listsB workB, fun entries l held => ?_, fun l => ?_, serveSources_served _,
      only.reports, ?_⟩
    · obtain ⟨level, justified⟩ := enterOnline_holds presence (s := s') entries held
      have config : (answeredAndServed b).control.config = s.control.config :=
        (congrArg StationControl.config only.control).trans rfl
      rw [isLevel, beq_iff_eq] at level
      rw [← b_eq, config] at level justified
      exact ⟨level, justified⟩
    · obtain ⟨masked, taken, -⟩ := only.masks l
      have cleared := onlineEntered_entry presence s' l
      exact ⟨masked.trans ((congrArg SourceEntry.masked cleared).trans rfl),
        taken.trans ((congrArg SourceEntry.takenHigh cleared).trans rfl)⟩
    · intro selfNotice matches_ freed
      have freed_of (n : HeldNotice) (free : Freed n.ref (answeredAndServed b)) : freed n := by
        obtain ⟨ref, kind, originator, tag, generation, cls, age, attempts, resolution⟩ := n
        cases ref <;> exact free
      refine ⟨fun r mem other => answeredAndServed_keepsRecord listsB workB mem fun n inList => other n ((self n).1 inList),
        fun x mem new => answeredAndServed_madeByLine listsB workB mem new, fun n r inList mem own => ?_,
        fun n inList none => ?_⟩
      · obtain ⟨⟨completed, -, givenBack, refused⟩, free⟩ :=
          answeredAndServed_answers listsB workB ((self n).2 inList) mem own
        refine ⟨freed_of n free, fun outcome is => (completed outcome is).endedIn,
          fun is below => givenBack is rfl below, fun is limit => (refused is rfl limit).endedIn⟩
      · have ended := answeredAndServed_stale listsB workB ((self n).2 inList) none
        obtain ⟨-, own, -⟩ := inList
        rcases ended with ⟨free, placed⟩ | waits
        · unfold copyReport at placed
          rw [own] at placed
          exact .inl ⟨freed_of n free, placed⟩
        · exact .inr waits

end Sys2Proof.Machine
end

section
/-! PROOFS. DRAIN taken in ONLINE (R55, R56, R74, R97, R106, R151, R163): the records withdrawn, the queue turned to RETURNING, the
station's own RETURNs answered and the latched edges discarded. -/

namespace Sys2Proof.Machine

/-! ### The queue turned to RETURNING (R150, R151) -/

/-- A WAITING record of the queue turned to RETURNING with its age. -/
def turned (p : InRecord × Nat) : InRecord := { p.1 with state := .returning p.2 0 none }

/-- The notice of a record so turned. -/
def turnedNotice (p : InRecord × Nat) : HeldNotice :=
  { ref := .inbound p.1.originator p.1.tag, kind := .ret, originator := p.1.originator, tag := p.1.tag,
    generation := p.1.generation, cls := p.1.cls, age := p.2, attempts := 0, resolution := none }

theorem inboundNotice_turned (p : InRecord × Nat) : inboundNotice (turned p) = some (turnedNotice p) := rfl

/-- The WAITING records of the queue, each with the age that a drain gives it. -/
def waitingAges (s : State) : List (InRecord × Nat) :=
  (s.work.inbound.filter fun r => r.state == .waiting).zipIdx s.work.noticeCounter

section
variable {s : State}

theorem mem_turnReturning (age : Nat) (q : List InRecord) (x : InRecord) : x ∈ (turnReturning age q).1 ↔
    (x ∈ q ∧ x.state ≠ .waiting) ∨ x ∈ ((q.filter fun r => r.state == .waiting).zipIdx age).map turned := by
  induction q generalizing age with
  | nil => simp [turnReturning]
  | cons r q ih =>
    unfold turnReturning
    cases state : r.state with
    | waiting =>
      have meets : (r.state == InboundState.waiting) = true := by rw [state]; rfl
      simp only
      rw [List.filter_cons, if_pos meets, List.zipIdx_cons, List.map_cons, List.mem_cons, List.mem_cons, List.mem_cons, ih]
      have notKept : x = r → ¬ x.state ≠ .waiting := fun same => not_not_intro (same ▸ state)
      change x = turned (r, age) ∨ _ ↔ _
      tauto
    | returning a b c =>
      have fails : ¬ (r.state == InboundState.waiting) = true := by rw [state]; nofun
      simp only
      rw [List.filter_cons, if_neg fails, List.mem_cons, List.mem_cons, ih]
      have kept : x = r → x.state ≠ .waiting := fun same => by rw [same, state]; nofun
      tauto

theorem returnWaiting_inbound (x : InRecord) : x ∈ (returnWaiting s).work.inbound ↔
    (x ∈ s.work.inbound ∧ x.state ≠ .waiting) ∨ x ∈ (waitingAges s).map turned := mem_turnReturning ..

theorem mem_waitingAges {p : InRecord × Nat} (mem : p ∈ waitingAges s) :
    p.1 ∈ s.work.inbound ∧ p.1.state = .waiting ∧ s.work.noticeCounter ≤ p.2 := by
  have first : p.1 ∈ (waitingAges s).map Prod.fst := List.mem_map_of_mem mem
  unfold waitingAges at first
  rw [List.zipIdx_map_fst, List.mem_filter, beq_iff_eq] at first
  exact ⟨first.1, first.2, List.le_snd_of_mem_zipIdx mem⟩

theorem waitingAges_of_waiting {r : InRecord} (mem : r ∈ s.work.inbound) (waiting : r.state = .waiting) :
    ∃ age, (r, age) ∈ waitingAges s := by
  have first : r ∈ (waitingAges s).map Prod.fst := by
    unfold waitingAges
    rw [List.zipIdx_map_fst]
    exact List.mem_filter.2 ⟨mem, by rw [waiting]; rfl⟩
  obtain ⟨p, inAges, rfl⟩ := List.mem_map.1 first
  exact ⟨p.2, inAges⟩

/-- Ages rise in queue order (R151). -/
theorem waitingAges_ascending (s : State) : (waitingAges s).Pairwise fun p q => p.2 < q.2 := by
  rw [← List.pairwise_map (f := Prod.snd) (R := fun a b : Nat => a < b)]
  unfold waitingAges
  rw [List.zipIdx_map_snd]
  exact List.pairwise_lt_range'

/-- Two WAITING records in queue order have their ages in that order. -/
theorem waitingAges_inOrder {a b : InRecord} (order : [a, b].Sublist s.work.inbound) (waitingA : a.state = .waiting)
    (waitingB : b.state = .waiting) : ∃ x y, [(a, x), (b, y)].Sublist (waitingAges s) := by
  have first : [a, b].Sublist ((waitingAges s).map Prod.fst) := by
    unfold waitingAges
    rw [List.zipIdx_map_fst]
    have sub := order.filter fun r => r.state == .waiting
    rwa [List.filter_cons_of_pos (by rw [waitingA]; rfl), List.filter_cons_of_pos (by rw [waitingB]; rfl),
      List.filter_nil] at sub
  obtain ⟨ages, sub, is⟩ := List.sublist_map_iff.1 first
  match ages, is with
  | [p, q], is =>
    cases is
    exact ⟨p.2, q.2, sub⟩

/-! ### The own RETURNs handed (R106, R151) -/

theorem handSelfReturns_eq (s u : State) :
    handSelfReturns (s.work.inbound.filter fun r => r.state == .waiting) u =
      handEach ((waitingAges s).map turnedNotice) u := by
  have first : (s.work.inbound.filter fun r => r.state == .waiting) = (waitingAges s).map Prod.fst :=
    (List.zipIdx_map_fst ..).symm
  unfold handSelfReturns handEach
  rw [first, List.foldl_map, List.foldl_map]
  rfl

/-- A notice to another station is not handed. -/
theorem handIfSelf_foreign {o : StationNumber} {tag : Tag} (other : o ≠ s.control.number) :
    handIfSelf (.inbound o tag) s = s := by
  unfold handIfSelf
  split
  case h_2 => rfl
  case h_1 n found =>
    have mem := List.mem_of_find?_eq_some found
    have ref : n.ref = .inbound o tag := by simpa using List.find?_some found
    obtain ⟨x, -, rfl, -, is⟩ := mem_heldNotices_inbound mem ref
    have originator : n.originator = x.originator := by
      unfold inboundNotice at is
      split at is <;> cases is
      rfl
    refine if_neg fun self => ?_
    simp only [isSelfNotice, originator, Bool.and_eq_true, beq_iff_eq] at self
    exact other self.1

theorem handEach_own (ps : List (InRecord × Nat)) (s : State) : handEach (ps.map turnedNotice) s =
    handEach ((ps.filter fun p => p.1.originator == s.control.number).map turnedNotice) s := by
  induction ps generalizing s with
  | nil => rfl
  | cons p ps ih =>
    have control := (onlyTickets_handIfSelf (turnedNotice p).ref s).control
    by_cases own : p.1.originator = s.control.number
    · rw [List.filter_cons_of_pos (by simpa using own)]
      have rest := ih (handIfSelf (turnedNotice p).ref s)
      rw [control] at rest
      exact rest
    · rw [List.filter_cons_of_neg (by simpa using own)]
      have skipped : handIfSelf (turnedNotice p).ref s = s := handIfSelf_foreign own
      have turn : handEach ((p :: ps).map turnedNotice) s = handEach (ps.map turnedNotice) (handIfSelf (turnedNotice p).ref s) := rfl
      rw [turn, skipped]
      exact ih s

end

/-! ### What a drain leaves of tags and holds -/

/-- Station control, the tag counter and the holds are as they were. -/
structure Undisturbed (s t : State) : Prop where
  control : t.control = s.control
  tagCounter : t.offer.tagCounter = s.offer.tagCounter
  holds : ∀ l, (entryAt t l).hold = (entryAt s l).hold

section
variable {s t u : State}

theorem Undisturbed.refl (s : State) : Undisturbed s s := ⟨rfl, rfl, fun _ => rfl⟩

theorem Undisturbed.trans (h : Undisturbed s t) (k : Undisturbed t u) : Undisturbed s u :=
  ⟨k.control.trans h.control, k.tagCounter.trans h.tagCounter, fun l => (k.holds l).trans (h.holds l)⟩

theorem Undisturbed.of_eq (control : t.control = s.control) (offer : t.offer = s.offer) (sources : t.sources = s.sources) :
    Undisturbed s t := ⟨control, by rw [offer], fun l => by unfold entryAt; rw [sources]⟩

theorem fixResolution_undisturbed (r : OutRecord) {res : Resolution} (peers : res ≠ .noPeer) :
    Undisturbed s (fixResolution r res s) := by
  refine ⟨(onlyTickets_fixResolution r res s).control, fixResolution_tagCounter r res s, fun l => ?_⟩
  have drawn : numberDrawn r res s = countResolution s := if_neg peers
  rw [fixResolution_eq, drawn]
  split
  case isTrue =>
    split
    case isTrue => exact entryAt_leaveList_hold ..
    case isFalse => rfl
  case isFalse => exact entryAt_leaveList_hold ..

theorem resolveRecord_undisturbed (silent : s.control.state.creates = false) (r : OutRecord) {res : Resolution}
    (peers : res ≠ .noPeer) : Undisturbed s (resolveRecord r res s) := by
  have fixed := fixResolution_undisturbed (s := s) r peers
  unfold resolveRecord
  rw [placeFreed_silent (by rw [fixed.control]; exact silent)]
  split <;> exact fixed

theorem forRecords_undisturbed {act : OutRecord → State → State} (tags : List Tag)
    (undisturbed : ∀ r u, u.control = s.control → Undisturbed u (act r u)) : Undisturbed s (forRecords tags act s) := by
  have each (t : State) (h : Undisturbed s t) : Undisturbed s (forRecords tags act t) := by
    induction tags generalizing t with
    | nil => exact h
    | cons tag tags ih =>
      refine ih _ ?_
      beta_reduce
      split
      case h_1 r _ => exact h.trans (undisturbed r t h.control)
      case h_2 => exact h
  exact each s (.refl s)

theorem handIfSelf_undisturbed (draining : s.control.state = .draining) (ref : CopyRef) : Undisturbed s (handIfSelf ref s) := by
  have silent : s.control.state.creates = false := by rw [draining]; rfl
  have freed (ref : CopyRef) (u : State) : Undisturbed u (freeCopy ref u) := by
    rw [freeCopy_eq]
    exact .of_eq rfl rfl rfl
  unfold handIfSelf
  split
  case h_2 => exact .refl s
  case h_1 n _ =>
    split
    case isFalse => exact .refl s
    case isTrue =>
      unfold handSelfNotice endCopy
      split
      case h_1 r _ =>
        refine Undisturbed.trans ?_ (freed n.ref _)
        cases n.kind with
        | done outcome => exact resolveRecord_undisturbed silent r nofun
        | ret =>
          unfold noticeAccepted
          simp only
          rw [if_pos draining]
          exact resolveRecord_undisturbed silent r nofun
      case h_2 =>
        split
        case isTrue =>
          have counted : Undisturbed s (pushReport (copyReport n .stale) (countResolution s)) := .of_eq rfl rfl rfl
          exact counted.trans (freed n.ref _)
        case isFalse =>
          rw [writeNotice_eq]
          exact .of_eq rfl rfl rfl

theorem handEach_undisturbed (draining : s.control.state = .draining) (ns : List HeldNotice) :
    Undisturbed s (handEach ns s) := by
  induction ns generalizing s with
  | nil => exact .refl s
  | cons n ns ih =>
    have one := handIfSelf_undisturbed draining n.ref
    exact one.trans (ih (by rw [one.control]; exact draining))

end

/-! ### DRAIN taken, part by part -/

/-- The records withdrawn (R97). -/
def drainWithdrawn (s : State) : State := withdrawWhere (fun r => r.state.isWaitingOrBackoff) (startDrain s)

/-- The queue turned to RETURNING (R151). -/
def drainReturned (s : State) : State := returnWaiting (drainWithdrawn s)

/-- The RETURNs to the station itself that the drain makes (R151). -/
def ownReturns (s : State) : List HeldNotice :=
  ((waitingAges s).filter fun p => p.1.originator == s.control.number).map turnedNotice

/-- The own RETURNs answered (R106, R157). -/
def drainHanded (s : State) : State := handEach (ownReturns s) (drainReturned s)

section
variable {s : State}

theorem drainWithdrawn_only (s : State) : OnlyTickets (startDrain s) (drainWithdrawn s) := onlyTickets_withdrawUnoffered _

theorem drainWithdrawn_work (s : State) : (drainWithdrawn s).work = s.work := (drainWithdrawn_only s).work

theorem drainReturned_control (s : State) : (drainReturned s).control = (startDrain s).control := (drainWithdrawn_only s).control

theorem waitingAges_congr {t : State} (work : t.work = s.work) : waitingAges t = waitingAges s := by
  unfold waitingAges
  rw [work]

theorem drainTaken_eq (s : State) : drainTaken s = testDrain (discardLatches (drainHanded s)) := by
  have number : (drainReturned s).control.number = s.control.number :=
    (congrArg StationControl.number (drainReturned_control s)).trans rfl
  have handed := (handSelfReturns_eq s (drainReturned s)).trans (handEach_own (waitingAges s) (drainReturned s))
  rw [number] at handed
  exact congrArg (fun u => testDrain (discardLatches u)) handed

theorem startDrain_silent (s : State) : (startDrain s).control.state.creates = false := rfl

theorem mem_ownReturns {n : HeldNotice} : n ∈ ownReturns s ↔
    ∃ p ∈ waitingAges s, p.1.originator = s.control.number ∧ n = turnedNotice p := by
  unfold ownReturns
  simp only [List.mem_map, List.mem_filter, beq_iff_eq]
  constructor
  · rintro ⟨p, ⟨inAges, own⟩, rfl⟩
    exact ⟨p, inAges, own, rfl⟩
  · rintro ⟨p, inAges, own, rfl⟩
    exact ⟨p, ⟨inAges, own⟩, rfl⟩

theorem drainReturned_inbound (x : InRecord) : x ∈ (drainReturned s).work.inbound ↔
    (x ∈ s.work.inbound ∧ x.state ≠ .waiting) ∨ x ∈ (waitingAges s).map turned := by
  unfold drainReturned
  rw [returnWaiting_inbound, drainWithdrawn_work, waitingAges_congr (drainWithdrawn_work s)]

theorem drainWithdrawn_touches (lists : s.ListsSound) :
    Touches (· ∈ s.offer.records.filter fun r => r.state.isWaitingOrBackoff) (startDrain s) (drainWithdrawn s) :=
  withdrawWhere_touches (s := startDrain s) lists

theorem drainReturned_touches (lists : s.ListsSound) :
    Touches (· ∈ s.offer.records.filter fun r => r.state.isWaitingOrBackoff) (startDrain s) (drainReturned s) := by
  have returned : Touches (fun _ => False) (drainWithdrawn s) (drainReturned s) := .of_eq rfl rfl rfl rfl
  exact ((drainWithdrawn_touches lists).trans returned).mono fun _ => Or.rec id False.elim

theorem drainReturned_workSound (work : s.WorkSound) : (drainReturned s).WorkSound :=
  returnWaiting_workSound (State.WorkSound.of_eq (s := startDrain s) work (drainWithdrawn_only s).work (drainWithdrawn_only s).claim)

theorem ownReturns_sound (work : s.WorkSound) : SelfNotices (ownReturns s) (drainReturned s) := by
  refine selfNotices_of (drainReturned_workSound work) ?_ fun n mem => ?_
  · obtain ⟨-, nodup, -⟩ := workSound_iff.1 work
    have refs : ((ownReturns s).map (·.ref)).Sublist (s.work.inbound.map fun x => CopyRef.inbound x.originator x.tag) := by
      unfold ownReturns
      rw [List.map_map]
      refine (List.filter_sublist.map _).trans ?_
      have first : ((waitingAges s).map Prod.fst).Sublist s.work.inbound := by
        unfold waitingAges
        rw [List.zipIdx_map_fst]
        exact List.filter_sublist
      have mapped := first.map fun x : InRecord => CopyRef.inbound x.originator x.tag
      rwa [List.map_map] at mapped
    have tickets := (copies_inbound_nodup nodup).map (f := fun ticket : StationNumber × Tag => CopyRef.inbound ticket.1 ticket.2)
      fun a b same => Prod.ext (CopyRef.inbound.inj same).1 (CopyRef.inbound.inj same).2
    rw [List.map_map] at tickets
    exact tickets.sublist refs
  · obtain ⟨p, inAges, own, rfl⟩ := mem_ownReturns.1 mem
    have held : turned p ∈ (drainReturned s).work.inbound :=
      (drainReturned_inbound _).2 (.inr (List.mem_map_of_mem inAges))
    exact ⟨mem_heldNotices.2 (.inr ⟨_, held, inboundNotice_turned p⟩),
      own.trans ((congrArg StationControl.number (drainReturned_control s)).trans rfl).symm, rfl⟩

theorem drainHanded_undisturbed (s : State) : Undisturbed (startDrain s) (drainHanded s) := by
  have withdrawn : Undisturbed (startDrain s) (drainWithdrawn s) :=
    forRecords_undisturbed _ fun r u control => resolveRecord_undisturbed (by rw [control]; rfl) r nofun
  have returned : Undisturbed (drainWithdrawn s) (drainReturned s) := .of_eq rfl rfl rfl
  refine (withdrawn.trans returned).trans (handEach_undisturbed ?_ _)
  rw [drainReturned_control]
  rfl

end

end Sys2Proof.Machine
end

section
/-! PROOFS. What DRAIN taken in ONLINE leaves of each record, each copy and each entry (R55, R97, R106, R150, R151, R163, R74). -/

namespace Sys2Proof.Machine

theorem isWaitingOrBackoff_iff {st : RecordState} : st.isWaitingOrBackoff = true ↔ st = .waiting ∨ ∃ n, st = .backoff n := by
  cases st <;> simp [RecordState.isWaitingOrBackoff]

/-- An order of ends stands while the queue grows and what waits goes on waiting. -/
theorem TakenBefore.after {first second : Report} {firstWaits secondWaits firstWaits' secondWaits' : Nat → Prop} {s t u : State}
    (h : TakenBefore first firstWaits second secondWaits s t) (queue : t.reports.queue <+: u.reports.queue)
    (firstMore : ∀ k, firstWaits k → firstWaits' k) (secondMore : ∀ k, secondWaits k → secondWaits' k) :
    TakenBefore first firstWaits' second secondWaits' s u := by
  have placed : (t.reports.queue.drop s.reports.queue.length).Sublist (u.reports.queue.drop s.reports.queue.length) :=
    queue.sublist.drop _
  rcases h with both | ⟨one, k, drawn, waits⟩ | ⟨j, k, drawn, less, waits, waits'⟩
  · exact .inl (both.trans placed)
  · exact .inr (.inl ⟨placed.subset one, k, drawn, secondMore k waits⟩)
  · exact .inr (.inr ⟨j, k, drawn, less, firstMore j waits, secondMore k waits'⟩)

section
variable {s : State}

theorem drainWithdrawn_left {x : OutRecord} (lists : s.ListsSound) (mem : x ∈ (drainWithdrawn s).offer.records) :
    (x ∈ s.offer.records ∧ x.state.isWaitingOrBackoff = false) ∨ ∃ k, x.state = .resolved .withdrawn k :=
  withdrawWhere_left (s := startDrain s) lists rfl mem

/-- A record of a claim is not withdrawn before the own RETURNs are answered. -/
theorem drainReturned_matches {n : HeldNotice} {r : OutRecord} {me : StationNumber} (lists : s.ListsSound)
    (own : Matches me n r) : r ∈ (drainReturned s).offer.records ↔ r ∈ s.offer.records := by
  obtain ⟨-, -, timer, claimed⟩ := own
  refine ⟨fun mem => ?_, fun mem => (drainWithdrawn_touches lists).kept r mem fun withdrawn => ?_⟩
  · rcases drainWithdrawn_left lists mem with ⟨held, -⟩ | ⟨k, resolved⟩
    · exact held
    · exact nomatch claimed.symm.trans resolved
  · have meets := (List.mem_filter.1 withdrawn).2
    rw [claimed] at meets
    cases meets

theorem ownReturns_fresh (work : s.WorkSound) {n : HeldNotice} (inList : n ∈ ownReturns s) {x : InRecord} (mem : x ∈ s.work.inbound)
    (ref : n.ref = .inbound x.originator x.tag) : x.state = .waiting ∧ x.originator = s.control.number := by
  obtain ⟨p, inAges, own, rfl⟩ := mem_ownReturns.1 inList
  obtain ⟨held, waiting, -⟩ := mem_waitingAges inAges
  obtain ⟨-, nodup, -⟩ := workSound_iff.1 work
  obtain ⟨originator, tag⟩ := CopyRef.inbound.inj ref
  obtain rfl := inbound_inj (copies_inbound_nodup nodup) held mem originator tag
  exact ⟨waiting, own⟩

section
variable (lists : s.ListsSound) (work : s.WorkSound)
include lists work

theorem drainHanded_touches :
    Touches (fun r => r ∈ s.offer.records ∧ ∃ n ∈ ownReturns s, Matches s.control.number n r) (drainReturned s) (drainHanded s) ∧
      CopiesTouched (fun ref => ∃ n ∈ ownReturns s, n.ref = ref) (drainReturned s) (drainHanded s) := by
  obtain ⟨records, copies⟩ := handEach_touches (ownReturns_sound work) ((drainReturned_touches lists).lists lists)
    (drainReturned_workSound work)
  refine ⟨records.mono fun r touched => ?_, copies⟩
  obtain ⟨held, n, inList, own⟩ := touched
  rw [drainReturned_control] at own
  exact ⟨(drainReturned_matches lists own).1 held, n, inList, own⟩

theorem drainHanded_kept {r : OutRecord} (mem : r ∈ s.offer.records) (stays : r.state.isWaitingOrBackoff = false)
    (other : ∀ n ∈ ownReturns s, ¬ Matches s.control.number n r) : r ∈ (drainHanded s).offer.records := by
  refine (drainHanded_touches lists work).1.kept r ((drainReturned_touches lists).kept r mem fun withdrawn => ?_)
    fun ⟨_, n, inList, own⟩ => other n inList own
  have meets := (List.mem_filter.1 withdrawn).2
  rw [stays] at meets
  cases meets

/-- A record that waits for report room stays so while the own RETURNs are answered. -/
theorem drainHanded_keepsResolved {r : OutRecord} {res : Resolution} {k : Nat}
    (mem : { r with state := .resolved res k } ∈ (drainWithdrawn s).offer.records) :
    { r with state := .resolved res k } ∈ (drainHanded s).offer.records :=
  (drainHanded_touches lists work).1.kept _ mem fun ⟨_, _, _, _, _, _, claimed⟩ => nomatch claimed

theorem drainHanded_withdraws {r : OutRecord} (mem : r ∈ s.offer.records) (state : r.state.isWaitingOrBackoff = true) :
    Ended r .withdrawn (startDrain s) (drainHanded s) := by
  have ended : Ended r .withdrawn (startDrain s) (drainReturned s) := withdrawWhere_ended (s := startDrain s) mem state lists
  refine ended.after (drainReturned_control s) (drainHanded_touches lists work).1 fun x touched tag => ?_
  obtain ⟨held, n, -, -, -, timer, claimed⟩ := touched
  obtain rfl := tag_inj lists.tags.2 held mem tag
  rw [claimed] at state
  cases state

theorem drainHanded_inOrder : EndedInListOrder (fun r res => res = .withdrawn ∧ (r.state = .waiting ∨ ∃ n, r.state = .backoff n))
    (startDrain s) (drainHanded s) := by
  have order := withdrawWhere_inOrder (s := startDrain s) (p := fun r => r.state.isWaitingOrBackoff)
    (ends := fun r res => res = .withdrawn ∧ (r.state = .waiting ∨ ∃ n, r.state = .backoff n)) lists
    fun r res meets => ⟨isWaitingOrBackoff_iff.2 meets.2, meets.1⟩
  intro a b resA resB sub endsA endsB reportA reportB
  exact (order a b resA resB sub endsA endsB reportA reportB).after (drainHanded_touches lists work).1.queue
    (fun _ => drainHanded_keepsResolved lists work) fun _ => drainHanded_keepsResolved lists work

section
variable {n : HeldNotice} (inList : n ∈ ownReturns s)
include inList

theorem drainHanded_answers {r : OutRecord} (mem : r ∈ s.offer.records) (own : Matches s.control.number n r) :
    Ended r .withdrawn (startDrain s) (drainHanded s) ∧ Freed n.ref (drainHanded s) := by
  obtain ⟨p, -, -, rfl⟩ := mem_ownReturns.1 inList
  have number : (drainReturned s).control = (startDrain s).control := drainReturned_control s
  obtain ⟨⟨-, withdrawn, -⟩, freed⟩ := handEach_answers (r := r) (ownReturns_sound work) ((drainReturned_touches lists).lists lists)
    (drainReturned_workSound work) inList ((drainReturned_matches lists own).2 mem) (by rw [number]; exact own)
  exact ⟨(withdrawn rfl (by rw [number]; rfl)).before (drainReturned_touches lists), freed⟩

theorem drainHanded_stale (none : ∀ r ∈ s.offer.records, ¬ Matches s.control.number n r) :
    StaleEnd n (startDrain s) (drainHanded s) := by
  refine (handEach_stale (ownReturns_sound work) ((drainReturned_touches lists).lists lists) (drainReturned_workSound work)
    inList fun r mem own => ?_).before (drainReturned_touches lists)
  rw [drainReturned_control] at own
  exact none r ((drainReturned_matches lists own).1 mem) own

end

/-- No record is left WAITING or in BACKOFF. -/
theorem drainHanded_left {x : OutRecord} (mem : x ∈ (drainHanded s).offer.records) :
    x.state ≠ .waiting ∧ ∀ n, x.state ≠ .backoff n := by
  have sound := (drainHanded_touches lists work).1.lists ((drainReturned_touches lists).lists lists)
  have neither : x.state.isWaitingOrBackoff = false := by
    rcases (drainHanded_touches lists work).1.made x mem with old | line | ⟨r, ⟨held, n, inList, own⟩, tag⟩
    · rcases drainWithdrawn_left lists old with ⟨-, stays⟩ | ⟨k, resolved⟩
      · exact stays
      · rw [resolved]; rfl
    · have creates := line.1
      rw [drainReturned_control] at creates
      cases creates
    · obtain ⟨k, resolved⟩ := (drainHanded_answers lists work inList held own).1.waits rfl sound mem tag.symm
      rw [resolved]; rfl
  have no := mt isWaitingOrBackoff_iff.2 (by rw [neither]; nofun)
  push Not at no
  exact no

/-! ### The queue after the drain (R150, R151) -/

theorem drainHanded_noneWaiting : ∀ r ∈ (drainHanded s).work.inbound, r.state ≠ .waiting := by
  intro r mem waiting
  rcases (drainReturned_inbound r).1 ((drainHanded_touches lists work).2.waiting r mem waiting) with ⟨-, other⟩ | fresh
  · exact other waiting
  · obtain ⟨p, -, rfl⟩ := List.mem_map.1 fresh
    cases waiting

theorem drainHanded_keepsReturning {r : InRecord} (mem : r ∈ s.work.inbound) (returning : r.state ≠ .waiting) :
    r ∈ (drainHanded s).work.inbound := by
  refine (drainHanded_touches lists work).2.kept r ((drainReturned_inbound r).2 (.inl ⟨mem, returning⟩)) ?_
  rintro ⟨n, inList, ref⟩
  exact returning (ownReturns_fresh work inList mem ref).1

theorem drainHanded_turns {r : InRecord} {age : Nat} (inAges : (r, age) ∈ waitingAges s) (other : r.originator ≠ s.control.number) :
    { r with state := .returning age 0 none } ∈ (drainHanded s).work.inbound := by
  refine (drainHanded_touches lists work).2.kept (turned (r, age)) ((drainReturned_inbound _).2 (.inr (List.mem_map_of_mem inAges))) ?_
  rintro ⟨n, inList, ref⟩
  exact other (ownReturns_fresh work inList (mem_waitingAges inAges).1 ref).2

theorem drainHanded_slots (i : Fin 8) : (drainHanded s).work.slots.get i = s.work.slots.get i := by
  have same : (drainReturned s).work.slots = s.work.slots :=
    Eq.trans (b := (drainWithdrawn s).work.slots) rfl (congrArg WorkUnit.slots (drainWithdrawn_work s))
  refine ((drainHanded_touches lists work).2.slots i ?_).trans (by rw [same])
  rintro ⟨n, inList, ref⟩
  obtain ⟨p, -, -, rfl⟩ := mem_ownReturns.1 inList
  cases ref

end

theorem handEach_only (ns : List HeldNotice) (s : State) : OnlyTickets { s with work := (handEach ns s).work } (handEach ns s) := by
  have only := onlyTickets_handAll (ns.map (·.ref)) s
  rwa [List.foldl_map] at only

theorem drainHanded_only (s : State) :
    OnlyTickets { startDrain s with work := (drainHanded s).work } (drainHanded s) := by
  have returned : OnlyTickets { startDrain s with work := (drainReturned s).work } (drainReturned s) :=
    (drainWithdrawn_only s).withWork _
  exact returned.thenWork (handEach_only _ _)

end

/-! ### The latched edges (R74) -/

theorem entryAt_discardLatches (s : State) (l : Line) : entryAt (discardLatches s) l = discardLatch (entryAt s l) :=
  vector_get_map s.sources l _

theorem discardLatch_clears (e : SourceEntry) : (discardLatch e).state ≠ .latched ∧
    (∀ tag, (discardLatch e).state ≠ .live tag true) ∧ (discardLatch e).masked = e.masked ∧ (discardLatch e).hold = e.hold ∧
    (discardLatch e).takenHigh = e.takenHigh := by
  unfold discardLatch
  split
  case h_1 => exact ⟨nofun, nofun, rfl, rfl, rfl⟩
  case h_2 => exact ⟨nofun, nofun, rfl, rfl, rfl⟩
  case h_3 quiet =>
    rw [quiet]
    exact ⟨nofun, nofun, rfl, rfl, rfl⟩

/-- Settles O11: what each part of the drain leaves of the records, the queue and the entries. -/
theorem drainByState : Obligations.DrainByState := by
  intro s run
  rw [exec_of_run run]
  refine ⟨fun other => congrArg _ (if_neg other), fun online lists work => ?_⟩
  have taken : drainCommand s = answer .ok (testDrain (discardLatches (drainHanded s))) :=
    (if_pos online).trans (congrArg (answer .ok) (drainTaken_eq s))
  have only := drainHanded_only s
  have undisturbed := drainHanded_undisturbed s
  set u := drainHanded s
  obtain ⟨bus, claim, work_, offer, reports, sources, port⟩ := testDrain_beside (discardLatches u)
  have control := testDrain_tested (s := startDrain s) (t := discardLatches u) only.control
  set t := testDrain (discardLatches u)
  have entry (l : Line) : entryAt (answer .ok t) l = discardLatch (entryAt u l) := by
    rw [← entryAt_discardLatches]
    unfold entryAt
    exact congrArg (Vector.get · l) sources
  have offer' : t.offer = u.offer := offer
  have reports' : t.reports = u.reports := reports
  have queue : t.work.inbound = u.work.inbound := congrArg WorkUnit.inbound work_
  refine ⟨answer .ok t, congrArg _ taken, ?_, bus.trans only.bus, claim.trans only.claim, ?_, ?_, ?_, ?_, control, ?_, ?_, ?_, ?_,
    ?_, ?_, ?_, ?_, fun l => ?_⟩
  · rw [answer_port, answer_port, port, show (discardLatches u).port = s.port from only.port]
  · have slots := drainHanded_slots lists work
    exact (congrArg WorkUnit.slots work_).trans (Vector.ext fun i less => slots ⟨i, less⟩)
  · exact (Eq.trans (b := t.held) rfl (congrArg State.held (testDrain_eq (discardLatches u)))).trans only.held
  · exact (congrArg OfferUnit.tagCounter offer').trans undisturbed.tagCounter
  · exact (congrArg OfferUnit.tickCount offer').trans only.tickCount
  · intro r mem
    exact drainHanded_left lists work (offer' ▸ mem)
  · intro r mem state
    obtain ⟨reported, unreported⟩ :=
      (drainHanded_withdraws lists work mem (isWaitingOrBackoff_iff.2 state)).quiet (startDrain_silent s)
    exact ⟨fun report => offer' ▸ reports' ▸ (reported report).imp_right And.right, offer' ▸ unreported⟩
  · intro a b resA resB sub endsA endsB reportA reportB
    exact (drainHanded_inOrder lists work a b resA resB sub endsA endsB reportA reportB).after
      (congrArg ReportUnit.queue reports' ▸ List.prefix_rfl) (fun _ waits => offer' ▸ waits) fun _ waits => offer' ▸ waits
  · intro r mem state
    refine offer' ▸ drainHanded_kept lists work mem ?_ fun n _ own => ?_
    · rcases state with ⟨_, offering⟩ | ⟨_, _, resolved⟩ | ⟨_, _, claimed, -⟩
      · rw [offering]; rfl
      · rw [resolved]; rfl
      · rw [claimed]; rfl
    · obtain ⟨-, -, timer, claimed⟩ := own
      rcases state with ⟨_, offering⟩ | ⟨_, _, resolved⟩ | ⟨_, _, claimed', other⟩
      · exact nomatch claimed.symm.trans offering
      · exact nomatch claimed.symm.trans resolved
      · exact other (RecordState.outstanding.inj (claimed'.symm.trans claimed)).1
  · intro r mem
    exact drainHanded_noneWaiting lists work r (queue ▸ mem)
  · intro r mem returning
    exact queue ▸ drainHanded_keepsReturning lists work mem returning
  · intro r mem waiting other
    obtain ⟨age, inAges⟩ := waitingAges_of_waiting mem waiting
    exact ⟨age, (mem_waitingAges inAges).2.2, queue ▸ drainHanded_turns lists work inAges other⟩
  · intro a b order waitingA waitingB otherA otherB
    obtain ⟨x, y, sub⟩ := waitingAges_inOrder order waitingA waitingB
    have ascending : x < y := List.rel_of_pairwise_cons ((waitingAges_ascending s).sublist sub) (List.mem_singleton_self _)
    exact ⟨x, y, ascending, queue ▸ drainHanded_turns lists work (sub.subset (by simp)) otherA,
      queue ▸ drainHanded_turns lists work (sub.subset (by simp)) otherB⟩
  · rw [entry]
    obtain ⟨notLatched, notLive, masked, hold, taken⟩ := discardLatch_clears (entryAt u l)
    obtain ⟨sameMask, sameTaken, -⟩ := only.masks l
    exact ⟨notLatched, notLive, masked.trans sameMask, hold.trans (undisturbed.holds l), taken.trans sameTaken⟩

end Sys2Proof.Machine
end

section
/-! PROOFS. FINISH and HAND_BACK of the station's own ticket, answered in the command's event (R100 to R106, R157, R158). -/

namespace Sys2Proof.Machine

/-- The notice that FINISH or HAND_BACK makes of a slot (R148, R149). -/
def madeNotice (i : Fin 8) (e : ServiceEntry) (kind : NoticeKind) (s : State) : HeldNotice :=
  { ref := .slot i, kind := kind, originator := e.originator, tag := e.tag, generation := e.generation, cls := e.cls,
    age := s.work.noticeCounter, attempts := 0, resolution := none }

/-- The work unit once the slot is empty again, with the notice's age drawn. -/
def slotEmptied (i : Fin 8) (s : State) : WorkUnit :=
  { s.work with slots := s.work.slots.set i none, noticeCounter := s.work.noticeCounter + 1 }

section
variable {s t : State} {i : Fin 8} {e : ServiceEntry}

theorem madeNotice_held (i : Fin 8) (e : ServiceEntry) (kind : NoticeKind) (s : State) :
    madeNotice i e kind s ∈ heldNotices (noticeMade i e kind s) :=
  mem_heldNotices.2 (.inl ⟨i, _, noticeMade_slot i e kind s, rfl⟩)

theorem noticeMade_workSound (kind : NoticeKind) (held : s.work.slots.get i = some e) (work : s.WorkSound) :
    (noticeMade i e kind s).WorkSound :=
  setSlot_state_workSound (s := { s with work.noticeCounter := s.work.noticeCounter + 1 }) held _ work

theorem disposeSlot_own (kind : NoticeKind) (answers : s.control.state.answers = true) (held : s.work.slots.get i = some e)
    (taken : e.state = .taken) (own : e.originator = s.control.number) (work : s.WorkSound) :
    disposeSlot i kind s = answer .ok (testDrain (handSelfNotice (madeNotice i e kind s) (noticeMade i e kind s))) := by
  have handed : handIfSelf (.slot i) (noticeMade i e kind s) = handSelfNotice (madeNotice i e kind s) (noticeMade i e kind s) :=
    handIfSelf_held (noticeMade_workSound kind held work) (madeNotice_held i e kind s) own rfl
  have made : makeNotice i e kind s = handIfSelf (.slot i) (noticeMade i e kind s) := if_pos answers
  unfold disposeSlot
  rw [held]
  simp only [taken]
  rw [made, handed]

theorem freeCopy_noticeMade (i : Fin 8) (e : ServiceEntry) (kind : NoticeKind) (s : State) :
    (freeCopy (.slot i) (noticeMade i e kind s)).work = slotEmptied i s :=
  congrArg (fun slots => { s.work with slots := slots, noticeCounter := s.work.noticeCounter + 1 }) (Vector.set_set ..)

/-! ### The record that the notice matches (R102 to R104) -/

/-- As `OnlyTickets`, once the answer is in the port. -/
theorem OnlyTickets.answer (h : OnlyTickets s t) (code : ResponseCode) :
    OnlyTickets { s with port := (answer code t).port } (answer code t) :=
  ⟨h.bus, h.control, h.claim, h.work, rfl, h.held, h.pending, h.inputs, h.freeDrawn, h.tickCount, h.masks, h.reports,
    h.numbers⟩

/-- The record's end and the slot freed. -/
def ownAccepted (i : Fin 8) (e : ServiceEntry) (kind : NoticeKind) (r : OutRecord) (s : State) : State :=
  freeCopy (.slot i) (noticeAccepted kind s.control.number r (noticeMade i e kind s))

section
variable {r : OutRecord} {kind : NoticeKind}

theorem handSelfNotice_ownAccepted (lists : s.ListsSound) (mem : r ∈ s.offer.records)
    (matched : Matches s.control.number (madeNotice i e kind s) r) :
    handSelfNotice (madeNotice i e kind s) (noticeMade i e kind s) = ownAccepted i e kind r s :=
  handSelfNotice_matched (s := noticeMade i e kind s) lists mem matched

theorem ownAccepted_only (i : Fin 8) (e : ServiceEntry) (kind : NoticeKind) (r : OutRecord) (s : State) :
    OnlyTickets { s with work := slotEmptied i s } (ownAccepted i e kind r s) := by
  have only := onlyTickets_noticeAccepted kind s.control.number r (noticeMade i e kind s)
  have freed : ownAccepted i e kind r s =
      { noticeAccepted kind s.control.number r (noticeMade i e kind s) with work := slotEmptied i s } := by
    rw [← freeCopy_noticeMade i e kind s]
    unfold ownAccepted
    rw [freeCopy_slot, setSlot, only.work]
    rfl
  rw [freed]
  exact only.withWork (slotEmptied i s)

/-- Freeing the slot and the answer change nothing that an end of a record is read from. -/
theorem ResolvedIn.ownAnswered {r' : OutRecord} {res : Resolution}
    (h : ResolvedIn r' res (noticeMade i e kind s) (noticeAccepted kind s.control.number r (noticeMade i e kind s))) :
    ResolvedIn r' res s (Machine.answer .ok (Machine.testDrain (ownAccepted i e kind r s))) :=
  ResolvedIn.testDrain (s := s) (t := ownAccepted i e kind r s) h

theorem ownAccepted_givenBack (online : s.control.state = .online)
    (below : r.attempts + 1 < (classOf s r.cls).attemptLimit) :
    (testDrain (ownAccepted i e .ret r s)).offer.records = s.offer.records.map fun x =>
      if x.tag = r.tag then { r with attempts := r.attempts + 1, state := .waiting } else x := by
  rw [testDrain_offer]
  exact noticeAccepted_ret_givenBack (s := noticeMade i e .ret s) online below

end

/-! ### No record matches (R158) -/

/-- The work unit once the notice is in its slot, with its resolution. -/
def slotWaits (i : Fin 8) (e : ServiceEntry) (kind : NoticeKind) (res : Option CopyResolution) (s : State) : WorkUnit :=
  { s.work with
    slots := s.work.slots.set i (some { e with state := .notifying kind s.work.noticeCounter 0 res })
    noticeCounter := s.work.noticeCounter + 1 }

theorem writeNotice_noticeMade (i : Fin 8) (e : ServiceEntry) (kind : NoticeKind) (s : State) (res : Option CopyResolution) :
    writeNotice { madeNotice i e kind s with resolution := res } (noticeMade i e kind s) =
      { s with work := slotWaits i e kind res s } := by
  unfold writeNotice madeNotice
  simp only
  rw [noticeMade_slot]
  exact congrArg (fun slots => { s with work := { s.work with slots := slots, noticeCounter := s.work.noticeCounter + 1 } })
    (Vector.set_set ..)

section
variable {kind : NoticeKind} (none : ∀ r ∈ s.offer.records, ¬ Matches s.control.number (madeNotice i e kind s) r)
include none

/-- With room the report is placed and the slot is empty. -/
theorem handSelfNotice_ownPlaced (room : s.reports.queue.length < 16) :
    testDrain (handSelfNotice (madeNotice i e kind s) (noticeMade i e kind s)) = { s with
      control := drainTested s { s with work.slots := s.work.slots.set i Option.none }
      work := slotEmptied i s
      reports := { queue := s.reports.queue ++ [copyReport (madeNotice i e kind s) .stale]
                   resolutionCounter := s.reports.resolutionCounter + 1 } } := by
  have ended : handSelfNotice (madeNotice i e kind s) (noticeMade i e kind s) = { s with
      work := slotEmptied i s
      reports := { queue := s.reports.queue ++ [copyReport (madeNotice i e kind s) .stale]
                   resolutionCounter := s.reports.resolutionCounter + 1 } } := by
    rw [handSelfNotice_stale (s := noticeMade i e kind s) none, endCopy_room (s := noticeMade i e kind s) _ _ room,
      ← freeCopy_noticeMade i e kind s]
    rfl
  rw [ended]
  exact testDrain_drainTested (s := s) rfl

/-- With the queue full the copy waits in its slot. -/
theorem handSelfNotice_ownWaits (full : 16 ≤ s.reports.queue.length) :
    testDrain (handSelfNotice (madeNotice i e kind s) (noticeMade i e kind s)) = { s with
      work := slotWaits i e kind (some ⟨.stale, s.reports.resolutionCounter⟩) s
      reports.resolutionCounter := s.reports.resolutionCounter + 1 } := by
  have ended : handSelfNotice (madeNotice i e kind s) (noticeMade i e kind s) = { s with
      work := slotWaits i e kind (some ⟨.stale, s.reports.resolutionCounter⟩) s
      reports.resolutionCounter := s.reports.resolutionCounter + 1 } := by
    rw [handSelfNotice_stale (s := noticeMade i e kind s) none, endCopy_full (s := noticeMade i e kind s) _ _ full,
      writeNotice_noticeMade]
    rfl
  rw [ended]
  exact testDrain_held (i := i) ((vector_get_set ..).trans (if_pos rfl))

end

/-! ### The command (R148, R149) -/

theorem dispose_command {c : Instr} {slot : Byte} {kind : NoticeKind} (run : s.held = false)
    (receives : s.control.state.receives = true) (same : slot.toNat = i.val)
    (command : (∃ outcome : Byte, outcome.toNat ≤ 3 ∧ c = .finish slot outcome ∧ kind = .done (BitVec.ofNat 2 outcome.toNat)) ∨
      c = .handBack slot ∧ kind = .ret) : exec c s = .next (disposeSlot i kind s) := by
  rw [exec_of_run run]
  rcases command with ⟨outcome, code, rfl, rfl⟩ | ⟨rfl, rfl⟩
  · exact congrArg _ (finishCommand_dispose receives same code)
  · exact congrArg _ (handBackCommand_dispose receives same)

end

end Sys2Proof.Machine
end

section
/-! PROOFS. The numbers that the self-notices of a drain take, and the order of the ends that draw them (R97, R106, R158, R163). -/

namespace Sys2Proof.Machine

/-! ### The end that a handed RETURN brings while draining -/

/-- The end that handing the RETURN brings: WITHDRAWN of the record it matches, or STALE of its copy. -/
def EndsAs (n : HeldNotice) (s t : State) (copyWaits : Nat → Prop) (report : Report) (waits : Nat → Prop) : Prop :=
  (∃ r ∈ s.offer.records, Matches s.control.number n r ∧ (classOf s r.cls).report = true ∧
    report = recordReport r .withdrawn ∧ waits = fun k => { r with state := .resolved .withdrawn k } ∈ t.offer.records) ∨
  ((∀ r ∈ s.offer.records, ¬ Matches s.control.number n r) ∧ report = copyReport n .stale ∧ waits = copyWaits)

section
variable {s t u : State} {ns before after : List HeldNotice} {n : HeldNotice} {report : Report} {copyWaits waits : Nat → Prop}

/-- The end is the same after other notices have been handed. -/
theorem EndsAs.later {touched : OutRecord → Prop} (h : EndsAs n s t copyWaits report waits) (k : Touches touched s u)
    (other : ∀ x, touched x → x.tag ≠ n.tag) : EndsAs n u t copyWaits report waits := by
  unfold EndsAs classOf
  rw [k.control]
  rcases h with ⟨r, mem, own, reports, is⟩ | ⟨none, is⟩
  · exact .inl ⟨r, (matched_before k other own).2 mem, own, reports, is⟩
  · exact .inr ⟨fun r mem own => none r ((matched_before k other own).1 mem) own, is⟩

theorem handSelfNotice_taken (lists : s.ListsSound) (draining : s.control.state = .draining) (held : n ∈ heldNotices s)
    (ret : n.kind = .ret) (ends : EndsAs n s t copyWaits report waits)
    (records : ∀ (r : OutRecord) k, { r with state := .resolved .withdrawn k } ∈ (handSelfNotice n s).offer.records →
      { r with state := .resolved .withdrawn k } ∈ t.offer.records)
    (copies : ∀ k, { n with resolution := some ⟨.stale, k⟩ } ∈ heldNotices (handSelfNotice n s) → copyWaits k) :
    EndTaken report waits s (handSelfNotice n s) := by
  rcases ends with ⟨r, mem, own, reports, rfl, rfl⟩ | ⟨none, rfl, rfl⟩
  · exact (handSelfNotice_withdrawTaken lists mem own ret draining reports).mono (records r)
  · exact (handSelfNotice_staleTaken held none).mono copies

/-- The number that one notice draws in its turn. -/
theorem handEach_taken (h : SelfNotices ns s) (lists : s.ListsSound) (work : s.WorkSound) (draining : s.control.state = .draining)
    (split : ns = before ++ n :: after) (ret : n.kind = .ret) (ends : EndsAs n s (handEach ns s) copyWaits report waits)
    (copies : ∀ k, { n with resolution := some ⟨.stale, k⟩ } ∈ heldNotices (handEach ns s) → copyWaits k) :
    ∃ u v, Touches (fun r => ∃ m ∈ before, Matches s.control.number m r) s u ∧ EndTaken report waits u v ∧
      Touches (fun r => ∃ m ∈ before ++ [n], Matches s.control.number m r) s v ∧ v.ListsSound ∧ v.WorkSound ∧
      SelfNotices after v ∧ handEach ns s = handEach after v ∧
      Touches (fun r => ∃ m ∈ after, Matches s.control.number m r) v (handEach ns s) := by
  obtain ⟨u, start, listsU, held, -, later, listsV, workV, turn, rest, restCopies⟩ := handEach_at h lists work split
  obtain ⟨apartBefore, apartAfter⟩ := (split ▸ h : SelfNotices (before ++ n :: after) s).apart
  have one := handSelfNotice_touches (n := n) listsU
  have endsU := ends.later start fun x ⟨m, earlier, tag, _⟩ same => (apartBefore m earlier).2 (tag.symm.trans same)
  refine ⟨u, handSelfNotice n u, start, ?_, ?_, listsV, workV, later, turn, rest⟩
  · refine handSelfNotice_taken listsU (by rw [start.control]; exact draining) held ret endsU (fun r k waits => ?_) fun k waits => ?_
    · exact rest.kept _ waits fun ⟨_, _, _, _, _, claimed⟩ => nomatch claimed
    · exact copies k (restCopies.held waits fun ⟨m, later, same⟩ => (apartAfter m later).1 same)
  · rw [start.control] at one
    refine (start.trans one).mono fun r touched => ?_
    rcases touched with ⟨m, earlier, own⟩ | ⟨-, own⟩
    · exact ⟨m, List.mem_append_left _ earlier, own⟩
    · exact ⟨n, List.mem_append_right _ (List.mem_singleton_self n), own⟩

/-- Of two notices, the one handed first takes its number first (R163). -/
theorem handEach_inOrder {a b : HeldNotice} {reportA reportB : Report} {copyA copyB waitsA waitsB : Nat → Prop}
    (h : SelfNotices ns s) (lists : s.ListsSound) (work : s.WorkSound) (draining : s.control.state = .draining)
    (order : [a, b].Sublist ns) (ret : a.kind = .ret ∧ b.kind = .ret)
    (endsA : EndsAs a s (handEach ns s) copyA reportA waitsA) (endsB : EndsAs b s (handEach ns s) copyB reportB waitsB)
    (copiesA : ∀ k, { a with resolution := some ⟨.stale, k⟩ } ∈ heldNotices (handEach ns s) → copyA k)
    (copiesB : ∀ k, { b with resolution := some ⟨.stale, k⟩ } ∈ heldNotices (handEach ns s) → copyB k) :
    TakenBefore reportA waitsA reportB waitsB s (handEach ns s) := by
  obtain ⟨front, back, split, inFront, inBack⟩ := List.cons_sublist_iff.1 order
  obtain ⟨p, q, rfl⟩ := List.append_of_mem inFront
  obtain ⟨m, e, rfl⟩ := List.append_of_mem (List.singleton_sublist.1 inBack)
  have first : ns = p ++ a :: ((q ++ m) ++ b :: e) := by rw [split]; simp
  have second : ns = (p ++ a :: (q ++ m)) ++ b :: e := by rw [split]; simp
  obtain ⟨u, v, start, one, untilV, listsV, workV, later, turn, -⟩ :=
    handEach_taken h lists work draining first ret.1 endsA copiesA
  obtain ⟨apart, -⟩ := (second ▸ h : SelfNotices ((p ++ a :: (q ++ m)) ++ b :: e) s).apart
  have endsV := endsB.later untilV fun x ⟨n, earlier, tag, _⟩ same => by
    refine (apart n ?_).2 (tag.symm.trans same)
    simp only [List.mem_append, List.mem_cons] at earlier ⊢
    tauto
  rw [turn] at endsV copiesB
  obtain ⟨w, x, between, two, -, -, -, -, -, rest⟩ := handEach_taken later listsV workV (by rw [untilV.control]; exact draining)
    rfl ret.2 endsV copiesB
  rw [← turn] at rest
  exact EndTaken.before start one between two rest

end

end Sys2Proof.Machine
end

section
/-! PROOFS. The station's own notices answered in the command's event (R106, R151, R157, R158, R163). -/

namespace Sys2Proof.Machine

/-- An order of ends stands when counted from an earlier state. -/
theorem TakenBefore.since {first second : Report} {firstWaits secondWaits : Nat → Prop} {touched : OutRecord → Prop} {s t u : State}
    (h : TakenBefore first firstWaits second secondWaits t u) (k : Touches touched s t) :
    TakenBefore first firstWaits second secondWaits s u := by
  have placed : (u.reports.queue.drop t.reports.queue.length).Sublist (u.reports.queue.drop s.reports.queue.length) :=
    List.drop_sublist_drop_left _ k.queue.length_le
  rcases h with both | ⟨one, k', drawn, waits⟩ | ⟨j, k', drawn, less, waits, waits'⟩
  · exact .inl (both.trans placed)
  · exact .inr (.inl ⟨placed.subset one, k', k.numbers.trans drawn, waits⟩)
  · exact .inr (.inr ⟨j, k', k.numbers.trans drawn, less, waits, waits'⟩)

section
variable {s : State}

theorem turnedNotice_staleReport {p : InRecord × Nat} {me : StationNumber} (own : p.1.originator = me) :
    copyReport (turnedNotice p) .stale =
      { kind := .stale, tag := p.1.tag, cls := p.1.cls, source := none, generation := p.1.generation, peer := some me,
        outcome := none, attempts := none } := by
  rw [← own]
  rfl

theorem turnedNotice_freed {p : InRecord × Nat} {me : StationNumber} {t : State} (own : p.1.originator = me)
    (freed : Freed (turnedNotice p).ref t) : ∀ x ∈ t.work.inbound, ¬ (x.originator = me ∧ x.tag = p.1.tag) := by
  rw [← own]
  exact freed

theorem inboundNotice_state {x : InRecord} {n : HeldNotice} (is : inboundNotice x = some n) :
    x.state = .returning n.age n.attempts n.resolution := by
  unfold inboundNotice at is
  split at is
  case h_1 => cases is
  case h_2 state => cases is; exact state

theorem EndsAs.returned {n : HeldNotice} {t : State} {copyWaits waits : Nat → Prop} {report : Report}
    (lists : s.ListsSound)
    (ends : EndsAs n s t copyWaits report waits) : EndsAs n (drainReturned s) t copyWaits report waits := by
  unfold EndsAs classOf
  rw [drainReturned_control]
  rcases ends with ⟨r, mem, own, reports, is⟩ | ⟨none, is⟩
  · exact .inl ⟨r, (drainReturned_matches lists own).2 mem, own, reports, is⟩
  · exact .inr ⟨fun r mem own => none r ((drainReturned_matches lists own).1 mem) own, is⟩

section
variable (lists : s.ListsSound) (work : s.WorkSound)
include lists work

/-- A RETURN still held after the drain is that of the queue's record. -/
theorem drainHanded_waits {p : InRecord × Nat} (inAges : p ∈ waitingAges s) {res : Option CopyResolution}
    (waits : { turnedNotice p with resolution := res } ∈ heldNotices (drainHanded s)) :
    { p.1 with state := .returning p.2 0 res } ∈ (drainHanded s).work.inbound := by
  obtain ⟨i, e, -, is⟩ | ⟨x, held, is⟩ := mem_heldNotices.1 waits
  · cases slotNotice_ref is
  obtain ⟨-, nodup, -⟩ := workSound_iff.1 (drainReturned_workSound work)
  obtain ⟨y, before, base⟩ := List.mem_map.1 ((drainHanded_touches lists work).2.bases.subset (List.mem_map_of_mem held))
  have turnedHeld : turned p ∈ (drainReturned s).work.inbound := (drainReturned_inbound _).2 (.inr (List.mem_map_of_mem inAges))
  obtain ⟨originator, tag⟩ := CopyRef.inbound.inj (inboundNotice_ref is)
  have same : y = turned p := inbound_inj (copies_inbound_nodup nodup) before turnedHeld
    ((congrArg InRecord.originator base).trans originator.symm) ((congrArg InRecord.tag base).trans tag.symm)
  have state := inboundNotice_state is
  have whole : x = { p.1 with state := .returning p.2 0 res } := by
    calc x = { x.base with state := x.state } := rfl
      _ = { (turned p).base with state := .returning p.2 0 res } := by rw [← base, same, state]; rfl
  exact whole ▸ held

theorem drainHanded_stales {p : InRecord × Nat} (inAges : p ∈ waitingAges s) (own : p.1.originator = s.control.number)
    (none : ∀ r ∈ s.offer.records, ¬ Matches s.control.number (turnedNotice p) r) :
    (Freed (turnedNotice p).ref (drainHanded s) ∧ copyReport (turnedNotice p) .stale ∈ (drainHanded s).reports.queue) ∨
      (16 ≤ (drainHanded s).reports.queue.length ∧ ∃ age n, s.work.noticeCounter ≤ age ∧
        { p.1 with state := .returning age 0 (some ⟨.stale, n⟩) } ∈ (drainHanded s).work.inbound) := by
  refine (drainHanded_stale lists work (mem_ownReturns.2 ⟨p, inAges, own, rfl⟩) none).imp_right fun ⟨full, k, _, waits⟩ => ?_
  exact ⟨full, p.2, k, (mem_waitingAges inAges).2.2, drainHanded_waits lists work inAges waits⟩

/-! ### The order of the numbers (R106, R163) -/

/-- The copy of the queue's record waits with its STALE end. -/
def StaleWaits (q : InRecord) (t : State) (k : Nat) : Prop :=
  ∃ age, { q with state := .returning age 0 (some ⟨.stale, k⟩) } ∈ t.work.inbound

theorem drainHanded_returnsInOrder {p q : InRecord × Nat} {reportP reportQ : Report} {waitsP waitsQ : Nat → Prop}
    (order : [p, q].Sublist (waitingAges s)) (ownP : p.1.originator = s.control.number) (ownQ : q.1.originator = s.control.number)
    (endsP : EndsAs (turnedNotice p) s (drainHanded s) (StaleWaits p.1 (drainHanded s)) reportP waitsP)
    (endsQ : EndsAs (turnedNotice q) s (drainHanded s) (StaleWaits q.1 (drainHanded s)) reportQ waitsQ) :
    TakenBefore reportP waitsP reportQ waitsQ (startDrain s) (drainHanded s) := by
  have inList : [turnedNotice p, turnedNotice q].Sublist (ownReturns s) := by
    have sub := (order.filter fun p => p.1.originator == s.control.number).map turnedNotice
    rwa [List.filter_cons_of_pos (by simpa using ownP), List.filter_cons_of_pos (by simpa using ownQ)] at sub
  refine (handEach_inOrder (ownReturns_sound work) ((drainReturned_touches lists).lists lists) (drainReturned_workSound work) ?_
    inList ⟨rfl, rfl⟩ (endsP.returned lists) (endsQ.returned lists) (fun k waits => ?_) fun k waits => ?_).since
    (drainReturned_touches lists)
  · rw [drainReturned_control]; rfl
  · exact ⟨p.2, drainHanded_waits lists work (order.subset (by simp)) waits⟩
  · exact ⟨q.2, drainHanded_waits lists work (order.subset (by simp)) waits⟩

/-- The records withdrawn take their numbers before the self-notices. -/
theorem drainHanded_withdrawnFirst {a : OutRecord} {q : InRecord × Nat} {report : Report} {waits : Nat → Prop}
    (mem : a ∈ s.offer.records) (state : a.state.isWaitingOrBackoff = true) (reports : (classOf s a.cls).report = true)
    (inAges : q ∈ waitingAges s) (own : q.1.originator = s.control.number)
    (ends : EndsAs (turnedNotice q) s (drainHanded s) (StaleWaits q.1 (drainHanded s)) report waits) :
    TakenBefore (recordReport a .withdrawn) (fun k => { a with state := .resolved .withdrawn k } ∈ (drainHanded s).offer.records)
      report waits (startDrain s) (drainHanded s) := by
  obtain ⟨before, after, split⟩ := List.append_of_mem
    (List.mem_filter.2 ⟨mem, state⟩ : a ∈ s.offer.records.filter fun r => r.state.isWaitingOrBackoff)
  obtain ⟨u, v, start, one, -, -, -, rest⟩ := forRecords_taken (s := startDrain s) (resolve_touches .withdrawn) split filter_inList
    (filter_nodup lists) lists (fun _ _ => rfl) reports
  have inList : turnedNotice q ∈ ownReturns s := mem_ownReturns.2 ⟨q, inAges, own, rfl⟩
  obtain ⟨before', after', split'⟩ := List.append_of_mem inList
  obtain ⟨w, x, start', two, -, -, -, -, -, rest'⟩ := handEach_taken (ownReturns_sound work)
    ((drainReturned_touches lists).lists lists) (drainReturned_workSound work) (by rw [drainReturned_control]; rfl) split' rfl
    (ends.returned lists) fun k waits => ⟨q.2, drainHanded_waits lists work inAges waits⟩
  have returned : Touches (fun _ => False) (drainWithdrawn s) (drainReturned s) := .of_eq rfl rfl rfl rfl
  exact EndTaken.before start (one.mono fun _ => drainHanded_keepsResolved lists work) ((rest.trans returned).trans start') two rest'

end

end

theorem drainCommand_online {s : State} (online : s.control.state = .online) :
    drainCommand s = answer .ok
      { discardLatches (drainHanded s) with control := (testDrain (discardLatches (drainHanded s))).control } := by
  have taken : drainCommand s = answer .ok (drainTaken s) := if_pos online
  rw [taken, drainTaken_eq]
  exact congrArg (answer .ok) (testDrain_eq _)

/-- Settles O19: the own notice handed while it is made, and the own RETURNs of a drain handed in queue order. -/
theorem selfNoticeAnsweredAtOnce : Obligations.SelfNoticeAnsweredAtOnce := by
  refine ⟨fun c kind slot i e s run same command state held taken own lists work => ?_, fun s run online lists work => ?_⟩
  · have answers := answers_iff.2 state
    have receives : s.control.state.receives = true := by
      rcases state with online | draining
      · rw [online]; rfl
      · rw [draining]; rfl
    rw [dispose_command run receives same command, disposeSlot_own kind answers held taken own work]
    refine ⟨fun r mem tag generation claimed => ?_, fun none => ?_⟩
    · rw [handSelfNotice_ownAccepted lists mem ⟨tag, generation, claimed⟩]
      obtain ⟨port, control, only⟩ := (ownAccepted_only i e kind r s).testDrain
      have work' : (testDrain (ownAccepted i e kind r s)).work = slotEmptied i s := only.work
      refine ⟨_, rfl, ?_, work', ?_, control, ?_, ?_, ?_, ?_⟩
      · rw [answer_port, answer_port, port]
      · have answered := only.answer .ok
        rw [← work'] at answered
        exact answered
      · rintro outcome rfl
        exact (noticeAccepted_done_resolved (s := noticeMade i e (.done outcome) s) outcome).ownAnswered
      · rintro rfl draining
        exact (noticeAccepted_ret_withdrawn (s := noticeMade i e .ret s) draining).ownAnswered
      · rintro rfl online below
        exact ownAccepted_givenBack online below
      · rintro rfl online limit
        exact (noticeAccepted_ret_refused (s := noticeMade i e .ret s) online limit).ownAnswered
    · have unmatched : ∀ r ∈ s.offer.records, ¬ Matches s.control.number (madeNotice i e kind s) r :=
        fun r mem ⟨tag, generation, timer, claimed⟩ => none r mem tag generation timer claimed
      refine ⟨fun room => ⟨_, ?_, rfl⟩, fun full => ?_⟩
      · rw [handSelfNotice_ownPlaced unmatched room, ← own]
        rfl
      · rw [handSelfNotice_ownWaits unmatched full]
        rfl
  · intro ownRecord
    refine ⟨_, (exec_of_run run _).trans (congrArg _ (drainCommand_online online)), fun q mem waiting own => ?_,
      fun r mem claimed other => ?_, ?_⟩
    · obtain ⟨age, inAges⟩ := waitingAges_of_waiting mem waiting
      refine ⟨fun r held matched => ?_, fun none => ?_⟩
      · obtain ⟨ended, freed⟩ := drainHanded_answers lists work (mem_ownReturns.2 ⟨_, inAges, own, rfl⟩) held matched
        exact ⟨turnedNotice_freed own freed, ended.quiet (startDrain_silent s)⟩
      · rcases drainHanded_stales lists work inAges own none with ⟨freed, placed⟩ | waits
        · exact .inl ⟨turnedNotice_freed own freed, turnedNotice_staleReport (p := (q, age)) own ▸ placed⟩
        · exact .inr waits
    · refine drainHanded_kept lists work mem ?_ fun n inList matched => ?_
      · obtain ⟨timer, state⟩ := claimed
        rw [state]
        rfl
      · obtain ⟨p, inAges, own, rfl⟩ := mem_ownReturns.1 inList
        obtain ⟨held, waiting, -⟩ := mem_waitingAges inAges
        exact other p.1 held waiting own matched
    · intro ends
      have endsAs {q : InRecord} {age : Nat} {report : Report} {waits : Nat → Prop} (h : ends q report waits) :
          EndsAs (turnedNotice (q, age)) s (drainHanded s) (StaleWaits q (drainHanded s)) report waits := by
        obtain ⟨-, own, h⟩ := h
        unfold EndsAs
        rw [turnedNotice_staleReport own]
        exact h
      refine ⟨fun a q report waits mem state reports inQueue h => ?_, fun p q reportP waitsP reportQ waitsQ order hP hQ => ?_⟩
      · obtain ⟨age, inAges⟩ := waitingAges_of_waiting inQueue h.1
        exact drainHanded_withdrawnFirst lists work mem (isWaitingOrBackoff_iff.2 state) reports inAges h.2.1 (endsAs h)
      · obtain ⟨x, y, inAges⟩ := waitingAges_inOrder order hP.1 hQ.1
        exact drainHanded_returnsInOrder lists work inAges hP.2.1 hQ.2.1 (endsAs hP) (endsAs hQ)

end Sys2Proof.Machine
end
